-- ==== Sys2Proof/Word.lean ====
section
/-! DEFINITION. The widths of the MN102L: bytes, words and 24-bit "pointer data" (spec/00_scope.md R9), and the
numbers of the data and address registers (spec/10_state.md R10, R12). -/

namespace Sys2Proof

/-- 8 bits: the addressable unit of memory (R9, R40). -/
abbrev Byte := BitVec 8

/-- 16 bits: "word" or "data" (R9). -/
abbrev Word := BitVec 16

/-- 24 bits: "pointer data", an address, or the whole of a data or address register (R9, R10, R12, R14). -/
abbrev Ptr := BitVec 24

/-- The four data registers D0..D3 (R10). -/
inductive DReg where
  | d0 | d1 | d2 | d3
deriving DecidableEq, Repr

/-- The four address registers A0..A3; A3 is the stack pointer (R12, R13). -/
inductive AReg where
  | a0 | a1 | a2 | a3
deriving DecidableEq, Repr

/-- The register number in an instruction code: "D0 00, D1 01, D2 10, D3 11" (R62). -/
def DReg.num : DReg → Nat
  | .d0 => 0 | .d1 => 1 | .d2 => 2 | .d3 => 3

/-- The register number in an instruction code: "A0 00, A1 01, A2 10, A3 11" (R62). -/
def AReg.num : AReg → Nat
  | .a0 => 0 | .a1 => 1 | .a2 => 2 | .a3 => 3

/-- The data register a two-bit field names (R62). -/
def DReg.ofNum : Nat → DReg
  | 0 => .d0 | 1 => .d1 | 2 => .d2 | _ => .d3

/-- The address register a two-bit field names (R62). -/
def AReg.ofNum : Nat → AReg
  | 0 => .a0 | 1 => .a1 | 2 => .a2 | _ => .a3

end Sys2Proof
end

