-- ==== Sys2Proof/Syntax.lean ====
section
/-! DEFINITION. Every instruction form of spec/opcode_table.json, one constructor each, its operands in the order the
source writes them (source first, destination second, R9). -/

namespace Sys2Proof

/-- The 157 hardware forms and the 4 assembler forms (R85, R86). `n` and `m` are register numbers as in the spec's own
names Dn, Dm, An, Am; `x` is the index register Di; `d` a displacement; `addr` an absolute address. -/
inductive Instr where
  -- MOV, register to register (spec/40_data_move_mov.md)
  /-- MOV Dm,An (R101) -/
  | movDmAn (m : DReg) (n : AReg)
  /-- MOV An,Dm (R102) -/
  | movAnDm (n : AReg) (m : DReg)
  /-- MOV Dn,Dm (R103) -/
  | movDnDm (n : DReg) (m : DReg)
  /-- MOV An,Am (R104) -/
  | movAnAm (n : AReg) (m : AReg)
  /-- MOV PSW,Dn (R105) -/
  | movPswDn (n : DReg)
  /-- MOV Dn,PSW (R106) -/
  | movDnPsw (n : DReg)
  /-- MOV MDR,Dn (R107) -/
  | movMdrDn (n : DReg)
  /-- MOV Dn,MDR (R108) -/
  | movDnMdr (n : DReg)
  -- MOV, memory and immediate forms
  /-- MOV (An),Dm (R109) -/
  | movIndDm (n : AReg) (m : DReg)
  /-- MOV (d8,An),Dm (R110) -/
  | movD8Dm (d : Byte) (n : AReg) (m : DReg)
  /-- MOV (d16,An),Dm (R111) -/
  | movD16Dm (d : Word) (n : AReg) (m : DReg)
  /-- MOV (d24,An),Dm (R112) -/
  | movD24Dm (d : Ptr) (n : AReg) (m : DReg)
  /-- MOV (Di,An),Dm (R113) -/
  | movIdxDm (x : DReg) (n : AReg) (m : DReg)
  /-- MOV (abs16),Dn (R114) -/
  | movAbs16Dn (addr : Word) (n : DReg)
  /-- MOV (abs24),Dn (R115) -/
  | movAbs24Dn (addr : Ptr) (n : DReg)
  /-- MOV (d8,An),Am (R117) -/
  | movD8Am (d : Byte) (n : AReg) (m : AReg)
  /-- MOV (d16,An),Am (R118) -/
  | movD16Am (d : Word) (n : AReg) (m : AReg)
  /-- MOV (d24,An),Am (R119) -/
  | movD24Am (d : Ptr) (n : AReg) (m : AReg)
  /-- MOV (abs16),An (R120) -/
  | movAbs16An (addr : Word) (n : AReg)
  /-- MOV (abs24),An (R121) -/
  | movAbs24An (addr : Ptr) (n : AReg)
  /-- MOV Dm,(An) (R122) -/
  | movDmInd (m : DReg) (n : AReg)
  /-- MOV Dm,(d8,An) (R123) -/
  | movDmD8 (m : DReg) (d : Byte) (n : AReg)
  /-- MOV Dm,(d16,An) (R124) -/
  | movDmD16 (m : DReg) (d : Word) (n : AReg)
  /-- MOV Dm,(d24,An) (R125) -/
  | movDmD24 (m : DReg) (d : Ptr) (n : AReg)
  /-- MOV Dm,(Di,An) (R126) -/
  | movDmIdx (m : DReg) (x : DReg) (n : AReg)
  /-- MOV Dn,(abs16) (R127) -/
  | movDnAbs16 (n : DReg) (addr : Word)
  /-- MOV Dn,(abs24) (R128) -/
  | movDnAbs24 (n : DReg) (addr : Ptr)
  /-- MOV Am,(d8,An) (R130) -/
  | movAmD8 (m : AReg) (d : Byte) (n : AReg)
  /-- MOV Am,(d16,An) (R131) -/
  | movAmD16 (m : AReg) (d : Word) (n : AReg)
  /-- MOV Am,(d24,An) (R132) -/
  | movAmD24 (m : AReg) (d : Ptr) (n : AReg)
  /-- MOV An,(abs16) (R133) -/
  | movAnAbs16 (n : AReg) (addr : Word)
  /-- MOV An,(abs24) (R134) -/
  | movAnAbs24 (n : AReg) (addr : Ptr)
  /-- MOV imm8,Dn (R135) -/
  | movImm8Dn (imm : Byte) (n : DReg)
  /-- MOV imm16,Dn (R136) -/
  | movImm16Dn (imm : Word) (n : DReg)
  /-- MOV imm24,Dn (R137) -/
  | movImm24Dn (imm : Ptr) (n : DReg)
  /-- MOV imm16,An (R138) -/
  | movImm16An (imm : Word) (n : AReg)
  /-- MOV imm24,An (R139) -/
  | movImm24An (imm : Ptr) (n : AReg)
  -- MOVX, MOVB, MOVBU, EXT family (spec/41_data_move_movx_movb_ext.md)
  /-- MOVX (d8,An),Dm (R141) -/
  | movxD8Dm (d : Byte) (n : AReg) (m : DReg)
  /-- MOVX (d16,An),Dm (R142) -/
  | movxD16Dm (d : Word) (n : AReg) (m : DReg)
  /-- MOVX (d24,An),Dm (R143) -/
  | movxD24Dm (d : Ptr) (n : AReg) (m : DReg)
  /-- MOVX Dm,(d8,An) (R144) -/
  | movxDmD8 (m : DReg) (d : Byte) (n : AReg)
  /-- MOVX Dm,(d16,An) (R145) -/
  | movxDmD16 (m : DReg) (d : Word) (n : AReg)
  /-- MOVX Dm,(d24,An) (R146) -/
  | movxDmD24 (m : DReg) (d : Ptr) (n : AReg)
  /-- MOVB (d8,An),Dm (R150) -/
  | movbD8Dm (d : Byte) (n : AReg) (m : DReg)
  /-- MOVB (d16,An),Dm (R151) -/
  | movbD16Dm (d : Word) (n : AReg) (m : DReg)
  /-- MOVB (d24,An),Dm (R152) -/
  | movbD24Dm (d : Ptr) (n : AReg) (m : DReg)
  /-- MOVB (Di,An),Dm (R153) -/
  | movbIdxDm (x : DReg) (n : AReg) (m : DReg)
  /-- MOVB (abs24),Dn (R155) -/
  | movbAbs24Dn (addr : Ptr) (n : DReg)
  /-- MOVB Dm,(An) (R156) -/
  | movbDmInd (m : DReg) (n : AReg)
  /-- MOVB Dm,(d8,An) (R157) -/
  | movbDmD8 (m : DReg) (d : Byte) (n : AReg)
  /-- MOVB Dm,(d16,An) (R158) -/
  | movbDmD16 (m : DReg) (d : Word) (n : AReg)
  /-- MOVB Dm,(d24,An) (R159) -/
  | movbDmD24 (m : DReg) (d : Ptr) (n : AReg)
  /-- MOVB Dm,(Di,An) (R160) -/
  | movbDmIdx (m : DReg) (x : DReg) (n : AReg)
  /-- MOVB Dn,(abs16) (R161) -/
  | movbDnAbs16 (n : DReg) (addr : Word)
  /-- MOVB Dn,(abs24) (R162) -/
  | movbDnAbs24 (n : DReg) (addr : Ptr)
  /-- MOVBU (An),Dm (R163) -/
  | movbuIndDm (n : AReg) (m : DReg)
  /-- MOVBU (d8,An),Dm (R164) -/
  | movbuD8Dm (d : Byte) (n : AReg) (m : DReg)
  /-- MOVBU (d16,An),Dm (R165) -/
  | movbuD16Dm (d : Word) (n : AReg) (m : DReg)
  /-- MOVBU (d24,An),Dm (R166) -/
  | movbuD24Dm (d : Ptr) (n : AReg) (m : DReg)
  /-- MOVBU (Di,An),Dm (R167) -/
  | movbuIdxDm (x : DReg) (n : AReg) (m : DReg)
  /-- MOVBU (abs16),Dn (R168) -/
  | movbuAbs16Dn (addr : Word) (n : DReg)
  /-- MOVBU (abs24),Dn (R169) -/
  | movbuAbs24Dn (addr : Ptr) (n : DReg)
  /-- EXT Dn (R170) -/
  | extDn (n : DReg)
  /-- EXTX Dn (R171) -/
  | extxDn (n : DReg)
  /-- EXTXU Dn (R172) -/
  | extxuDn (n : DReg)
  /-- EXTXB Dn (R173) -/
  | extxbDn (n : DReg)
  /-- EXTXBU Dn (R174) -/
  | extxbuDn (n : DReg)
  -- arithmetic (spec/42_arithmetic.md)
  /-- ADD Dn,Dm (R183) -/
  | addDnDm (n : DReg) (m : DReg)
  /-- ADD Dm,An (R184) -/
  | addDmAn (m : DReg) (n : AReg)
  /-- ADD An,Dm (R185) -/
  | addAnDm (n : AReg) (m : DReg)
  /-- ADD An,Am (R186) -/
  | addAnAm (n : AReg) (m : AReg)
  /-- ADD imm8,Dn (R187) -/
  | addImm8Dn (imm : Byte) (n : DReg)
  /-- ADD imm16,Dn (R188) -/
  | addImm16Dn (imm : Word) (n : DReg)
  /-- ADD imm24,Dn (R189) -/
  | addImm24Dn (imm : Ptr) (n : DReg)
  /-- ADD imm8,An (R190) -/
  | addImm8An (imm : Byte) (n : AReg)
  /-- ADD imm16,An (R191) -/
  | addImm16An (imm : Word) (n : AReg)
  /-- ADD imm24,An (R192) -/
  | addImm24An (imm : Ptr) (n : AReg)
  /-- ADDC Dn,Dm (R193) -/
  | addcDnDm (n : DReg) (m : DReg)
  /-- ADDNF imm8,An (R194) -/
  | addnfImm8An (imm : Byte) (n : AReg)
  /-- SUB Dn,Dm (R195) -/
  | subDnDm (n : DReg) (m : DReg)
  /-- SUB Dm,An (R196) -/
  | subDmAn (m : DReg) (n : AReg)
  /-- SUB An,Dm (R197) -/
  | subAnDm (n : AReg) (m : DReg)
  /-- SUB An,Am (R198) -/
  | subAnAm (n : AReg) (m : AReg)
  /-- SUB imm16,Dn (R199) -/
  | subImm16Dn (imm : Word) (n : DReg)
  /-- SUB imm24,Dn (R200) -/
  | subImm24Dn (imm : Ptr) (n : DReg)
  /-- SUB imm16,An (R201) -/
  | subImm16An (imm : Word) (n : AReg)
  /-- SUB imm24,An (R202) -/
  | subImm24An (imm : Ptr) (n : AReg)
  /-- SUBC Dn,Dm (R203) -/
  | subcDnDm (n : DReg) (m : DReg)
  /-- MUL Dn,Dm (R204) -/
  | mulDnDm (n : DReg) (m : DReg)
  /-- MULU Dn,Dm (R205) -/
  | muluDnDm (n : DReg) (m : DReg)
  /-- DIVU Dn,Dm (R206) -/
  | divuDnDm (n : DReg) (m : DReg)
  /-- CMP Dn,Dm (R207) -/
  | cmpDnDm (n : DReg) (m : DReg)
  /-- CMP Dm,An (R208) -/
  | cmpDmAn (m : DReg) (n : AReg)
  /-- CMP An,Dm (R209) -/
  | cmpAnDm (n : AReg) (m : DReg)
  /-- CMP An,Am (R210) -/
  | cmpAnAm (n : AReg) (m : AReg)
  /-- CMP imm8,Dn (R211) -/
  | cmpImm8Dn (imm : Byte) (n : DReg)
  /-- CMP imm16,Dn (R212) -/
  | cmpImm16Dn (imm : Word) (n : DReg)
  /-- CMP imm24,Dn (R213) -/
  | cmpImm24Dn (imm : Ptr) (n : DReg)
  /-- CMP imm16,An (R214) -/
  | cmpImm16An (imm : Word) (n : AReg)
  /-- CMP imm24,An (R215) -/
  | cmpImm24An (imm : Ptr) (n : AReg)
  -- logical (spec/43_logical.md)
  /-- AND Dn,Dm (R231) -/
  | andDnDm (n : DReg) (m : DReg)
  /-- AND imm8,Dn (R232) -/
  | andImm8Dn (imm : Byte) (n : DReg)
  /-- AND imm16,Dn (R233) -/
  | andImm16Dn (imm : Word) (n : DReg)
  /-- AND imm16,PSW (R234) -/
  | andImm16Psw (imm : Word)
  /-- OR Dn,Dm (R235) -/
  | orDnDm (n : DReg) (m : DReg)
  /-- OR imm8,Dn (R236) -/
  | orImm8Dn (imm : Byte) (n : DReg)
  /-- OR imm16,Dn (R237) -/
  | orImm16Dn (imm : Word) (n : DReg)
  /-- OR imm16,PSW (R238) -/
  | orImm16Psw (imm : Word)
  /-- XOR Dn,Dm (R239) -/
  | xorDnDm (n : DReg) (m : DReg)
  /-- XOR imm16,Dn (R240) -/
  | xorImm16Dn (imm : Word) (n : DReg)
  /-- NOT Dn (R241) -/
  | notDn (n : DReg)
  /-- ASR Dn (R242) -/
  | asrDn (n : DReg)
  /-- LSR Dn (R243) -/
  | lsrDn (n : DReg)
  /-- ROR Dn (R244) -/
  | rorDn (n : DReg)
  /-- ROL Dn (R245) -/
  | rolDn (n : DReg)
  -- bit manipulation (spec/44_bit_manipulation.md)
  /-- BTST imm8,Dn (R260) -/
  | btstImm8Dn (imm : Byte) (n : DReg)
  /-- BTST imm16,Dn (R261) -/
  | btstImm16Dn (imm : Word) (n : DReg)
  /-- BSET Dm,(An) (R262) -/
  | bsetDmInd (m : DReg) (n : AReg)
  /-- BCLR Dm,(An) (R263) -/
  | bclrDmInd (m : DReg) (n : AReg)
  -- branches (spec/45_branch.md)
  /-- BEQ label (R273) -/
  | beq (d : Byte)
  /-- BNE label (R274) -/
  | bne (d : Byte)
  /-- BLT label (R275) -/
  | blt (d : Byte)
  /-- BLE label (R276) -/
  | ble (d : Byte)
  /-- BGE label (R277) -/
  | bge (d : Byte)
  /-- BGT label (R278) -/
  | bgt (d : Byte)
  /-- BCS label (R279) -/
  | bcs (d : Byte)
  /-- BLS label (R280) -/
  | bls (d : Byte)
  /-- BCC label (R281) -/
  | bcc (d : Byte)
  /-- BHI label (R282) -/
  | bhi (d : Byte)
  /-- BVC label (R283) -/
  | bvc (d : Byte)
  /-- BVS label (R284) -/
  | bvs (d : Byte)
  /-- BNC label (R285) -/
  | bnc (d : Byte)
  /-- BNS label (R286) -/
  | bns (d : Byte)
  /-- BRA label (R287) -/
  | bra (d : Byte)
  /-- BEQX label (R288) -/
  | beqx (d : Byte)
  /-- BNEX label (R289) -/
  | bnex (d : Byte)
  /-- BLTX label (R290) -/
  | bltx (d : Byte)
  /-- BLEX label (R291) -/
  | blex (d : Byte)
  /-- BGEX label (R292) -/
  | bgex (d : Byte)
  /-- BGTX label (R293) -/
  | bgtx (d : Byte)
  /-- BCSX label (R294) -/
  | bcsx (d : Byte)
  /-- BLSX label (R295) -/
  | blsx (d : Byte)
  /-- BCCX label (R296) -/
  | bccx (d : Byte)
  /-- BHIX label (R297) -/
  | bhix (d : Byte)
  /-- BVCX label (R298) -/
  | bvcx (d : Byte)
  /-- BVSX label (R299) -/
  | bvsx (d : Byte)
  /-- BNCX label (R300) -/
  | bncx (d : Byte)
  /-- BNSX label (R301) -/
  | bnsx (d : Byte)
  /-- JMP label16 (R302) -/
  | jmpLabel16 (d : Word)
  /-- JMP label24 (R303) -/
  | jmpLabel24 (d : Ptr)
  /-- JMP (An) (R304) -/
  | jmpInd (n : AReg)
  /-- JSR label16 (R305) -/
  | jsrLabel16 (d : Word)
  /-- JSR label24 (R306) -/
  | jsrLabel24 (d : Ptr)
  /-- JSR (An) (R307) -/
  | jsrInd (n : AReg)
  /-- NOP (R309) -/
  | nop
  /-- RTS (R310) -/
  | rts
  /-- RTI (R312) -/
  | rti
  -- assembler forms (R83): written by programmers, encoded as their expansion, never decoded (R86)
  /-- MOV (An),Am (R116) -/
  | movIndAm (n : AReg) (m : AReg)
  /-- MOV Am,(An) (R129) -/
  | movAmInd (m : AReg) (n : AReg)
  /-- MOVB (An),Dm (R149) -/
  | movbIndDm (n : AReg) (m : DReg)
  /-- MOVB (abs16),Dn (R154) -/
  | movbAbs16Dn (addr : Word) (n : DReg)
deriving DecidableEq, Repr

end Sys2Proof
end

