-- ==== Sys2Proof/WellFormed.lean ====
section
/-! DEFINITION. Which terms of Instr are instructions of the hardware. The types of the operands already bound every
register number, immediate, displacement and address (R62, R63), so two checks remain. -/

namespace Sys2Proof

/-- The four forms "supported by the assembler" (R83): the hardware has no instruction of its own for them. -/
def Instr.isAssemblerForm : Instr → Bool
  | .movIndAm _ _ => true
  | .movAmInd _ _ => true
  | .movbIndDm _ _ => true
  | .movbAbs16Dn _ _ => true
  | _ => false

/-- MOV Dn,Dm with n = m: "The same register cannot be specified for Dn and Dm." (R81, R103). -/
def Instr.isSelfMove : Instr → Bool
  | .movDnDm n m => decide (n = m)
  | _ => false

/-- A hardware instruction that has a code (R81, R82, R86). -/
def Instr.wellFormed (i : Instr) : Bool :=
  !i.isAssemblerForm && !i.isSelfMove

end Sys2Proof
end

