-- ==== Sys2Proof/Decode.lean ====
section
/-! DEFINITION. The decoder and the encoder, both written from spec/30_encoding.md. -/

namespace Sys2Proof

/-- What the decoder answers on a run of bytes. -/
inductive Decoded where
  /-- an instruction, and the bytes that follow it -/
  | ok (i : Instr) (rest : List Byte)
  /-- an unassigned code (R80): the model refuses it by name (Machine.Refusal.undefinedInstruction) -/
  | undefined
  /-- the bytes are the start of an instruction and end before it does -/
  | short
deriving DecidableEq, Repr

/-- The seven prefixes (R60). -/
inductive Prefix where
  | f0 | f1 | f2 | f3 | f4 | f5 | f7
deriving DecidableEq, Repr

/-- One cell of an instruction map (R64): what an operation code is and which operand follows it (R63). -/
inductive Entry where
  | unassigned
  | extended (p : Prefix)
  | plain (i : Instr)
  | op8 (f : Byte → Instr)
  | op16 (f : Word → Instr)
  | op24 (f : Ptr → Instr)

/-- The first-byte map (R65). `x` is bits 3..2, `y` bits 1..0; the row 0x8x is MOV Dn,Dm or MOV imm8,Dn as the two
fields differ or agree (R81). -/
def firstByte (b : Byte) : Entry :=
  let x := b.toNat / 4 % 4
  let y := b.toNat % 4
  match b.toNat / 16 with
  | 0x0 => .plain (.movDmInd (.ofNum y) (.ofNum x))
  | 0x1 => .plain (.movbDmInd (.ofNum x) (.ofNum y))
  | 0x2 => .plain (.movIndDm (.ofNum x) (.ofNum y))
  | 0x3 => .plain (.movbuIndDm (.ofNum x) (.ofNum y))
  | 0x4 => .op8 fun d => .movDmD8 (.ofNum y) d (.ofNum x)
  | 0x5 => .op8 fun d => .movAmD8 (.ofNum y) d (.ofNum x)
  | 0x6 => .op8 fun d => .movD8Dm d (.ofNum x) (.ofNum y)
  | 0x7 => .op8 fun d => .movD8Am d (.ofNum x) (.ofNum y)
  | 0x8 => if x = y then .op8 fun imm => .movImm8Dn imm (.ofNum x) else .plain (.movDnDm (.ofNum x) (.ofNum y))
  | 0x9 => .plain (.addDnDm (.ofNum x) (.ofNum y))
  | 0xA => .plain (.subDnDm (.ofNum x) (.ofNum y))
  | 0xB => match x, y with
    | 0, _ => .plain (.extxDn (.ofNum y))
    | 1, _ => .plain (.extxuDn (.ofNum y))
    | 2, _ => .plain (.extxbDn (.ofNum y))
    | _, _ => .plain (.extxbuDn (.ofNum y))
  | 0xC => match x, y with
    | 0, _ => .op16 fun addr => .movDnAbs16 (.ofNum y) addr
    | 1, _ => .op16 fun addr => .movbDnAbs16 (.ofNum y) addr
    | 2, _ => .op16 fun addr => .movAbs16Dn addr (.ofNum y)
    | _, _ => .op16 fun addr => .movbuAbs16Dn addr (.ofNum y)
  | 0xD => match x, y with
    | 0, _ => .op8 fun imm => .addImm8An imm (.ofNum y)
    | 1, _ => .op8 fun imm => .addImm8Dn imm (.ofNum y)
    | 2, _ => .op8 fun imm => .cmpImm8Dn imm (.ofNum y)
    | _, _ => .op16 fun imm => .movImm16An imm (.ofNum y)
  | 0xE => match x, y with
    | 0, 0 => .op8 fun d => .blt d
    | 0, 1 => .op8 fun d => .bgt d
    | 0, 2 => .op8 fun d => .bge d
    | 0, 3 => .op8 fun d => .ble d
    | 1, 0 => .op8 fun d => .bcs d
    | 1, 1 => .op8 fun d => .bhi d
    | 1, 2 => .op8 fun d => .bcc d
    | 1, 3 => .op8 fun d => .bls d
    | 2, 0 => .op8 fun d => .beq d
    | 2, 1 => .op8 fun d => .bne d
    | 2, 2 => .op8 fun d => .bra d
    | 2, 3 => .plain .rti
    | 3, _ => .op16 fun imm => .cmpImm16An imm (.ofNum y)
    | _, _ => .unassigned
  | 0xF => match x, y with
    | 0, 0 => .extended .f0
    | 0, 1 => .extended .f1
    | 0, 2 => .extended .f2
    | 0, 3 => .extended .f3
    | 1, 0 => .extended .f4
    | 1, 1 => .extended .f5
    | 1, 2 => .plain .nop
    | 1, 3 => .extended .f7
    | 2, _ => .op16 fun imm => .movImm16Dn imm (.ofNum y)
    | 3, 0 => .op16 fun d => .jmpLabel16 d
    | 3, 1 => .op16 fun d => .jsrLabel16 d
    | 3, 2 => .plain .rts
    | _, _ => .unassigned
  | _ => .unassigned

/-- Second bytes after the prefix F0, 2 bytes (R66). In the indexed forms bits 5..4 are Di (R62). -/
def pageF0 (b : Byte) : Entry :=
  let x := b.toNat / 4 % 4
  let y := b.toNat % 4
  match b.toNat / 16 with
  | 0x0 => match x, y with
    | _, 0 => .plain (.jmpInd (.ofNum x))
    | _, 1 => .plain (.jsrInd (.ofNum x))
    | _, _ => .unassigned
  | 0x2 => .plain (.bsetDmInd (.ofNum y) (.ofNum x))
  | 0x3 => .plain (.bclrDmInd (.ofNum y) (.ofNum x))
  | 0x4 => .plain (.movbIdxDm (.ofNum 0) (.ofNum x) (.ofNum y))
  | 0x5 => .plain (.movbIdxDm (.ofNum 1) (.ofNum x) (.ofNum y))
  | 0x6 => .plain (.movbIdxDm (.ofNum 2) (.ofNum x) (.ofNum y))
  | 0x7 => .plain (.movbIdxDm (.ofNum 3) (.ofNum x) (.ofNum y))
  | 0x8 => .plain (.movbuIdxDm (.ofNum 0) (.ofNum x) (.ofNum y))
  | 0x9 => .plain (.movbuIdxDm (.ofNum 1) (.ofNum x) (.ofNum y))
  | 0xA => .plain (.movbuIdxDm (.ofNum 2) (.ofNum x) (.ofNum y))
  | 0xB => .plain (.movbuIdxDm (.ofNum 3) (.ofNum x) (.ofNum y))
  | 0xC => .plain (.movbDmIdx (.ofNum y) (.ofNum 0) (.ofNum x))
  | 0xD => .plain (.movbDmIdx (.ofNum y) (.ofNum 1) (.ofNum x))
  | 0xE => .plain (.movbDmIdx (.ofNum y) (.ofNum 2) (.ofNum x))
  | 0xF => .plain (.movbDmIdx (.ofNum y) (.ofNum 3) (.ofNum x))
  | _ => .unassigned

/-- Second bytes after the prefix F1, 2 bytes (R67). In the indexed forms bits 5..4 are Di (R62). -/
def pageF1 (b : Byte) : Entry :=
  let x := b.toNat / 4 % 4
  let y := b.toNat % 4
  match b.toNat / 16 with
  | 0x4 => .plain (.movIdxDm (.ofNum 0) (.ofNum x) (.ofNum y))
  | 0x5 => .plain (.movIdxDm (.ofNum 1) (.ofNum x) (.ofNum y))
  | 0x6 => .plain (.movIdxDm (.ofNum 2) (.ofNum x) (.ofNum y))
  | 0x7 => .plain (.movIdxDm (.ofNum 3) (.ofNum x) (.ofNum y))
  | 0xC => .plain (.movDmIdx (.ofNum y) (.ofNum 0) (.ofNum x))
  | 0xD => .plain (.movDmIdx (.ofNum y) (.ofNum 1) (.ofNum x))
  | 0xE => .plain (.movDmIdx (.ofNum y) (.ofNum 2) (.ofNum x))
  | 0xF => .plain (.movDmIdx (.ofNum y) (.ofNum 3) (.ofNum x))
  | _ => .unassigned

/-- Second bytes after the prefix F2, 2 bytes (R68). -/
def pageF2 (b : Byte) : Entry :=
  let x := b.toNat / 4 % 4
  let y := b.toNat % 4
  match b.toNat / 16 with
  | 0x0 => .plain (.addDmAn (.ofNum x) (.ofNum y))
  | 0x1 => .plain (.subDmAn (.ofNum x) (.ofNum y))
  | 0x2 => .plain (.cmpDmAn (.ofNum x) (.ofNum y))
  | 0x3 => .plain (.movDmAn (.ofNum x) (.ofNum y))
  | 0x4 => .plain (.addAnAm (.ofNum x) (.ofNum y))
  | 0x5 => .plain (.subAnAm (.ofNum x) (.ofNum y))
  | 0x6 => .plain (.cmpAnAm (.ofNum x) (.ofNum y))
  | 0x7 => .plain (.movAnAm (.ofNum x) (.ofNum y))
  | 0x8 => .plain (.addcDnDm (.ofNum x) (.ofNum y))
  | 0x9 => .plain (.subcDnDm (.ofNum x) (.ofNum y))
  | 0xC => .plain (.addAnDm (.ofNum x) (.ofNum y))
  | 0xD => .plain (.subAnDm (.ofNum x) (.ofNum y))
  | 0xE => .plain (.cmpAnDm (.ofNum x) (.ofNum y))
  | 0xF => .plain (.movAnDm (.ofNum x) (.ofNum y))
  | _ => .unassigned

/-- Second bytes after the prefix F3, 2 bytes (R69). -/
def pageF3 (b : Byte) : Entry :=
  let x := b.toNat / 4 % 4
  let y := b.toNat % 4
  match b.toNat / 16 with
  | 0x0 => .plain (.andDnDm (.ofNum x) (.ofNum y))
  | 0x1 => .plain (.orDnDm (.ofNum x) (.ofNum y))
  | 0x2 => .plain (.xorDnDm (.ofNum x) (.ofNum y))
  | 0x3 => match x, y with
    | 0, _ => .plain (.rolDn (.ofNum y))
    | 1, _ => .plain (.rorDn (.ofNum y))
    | 2, _ => .plain (.asrDn (.ofNum y))
    | _, _ => .plain (.lsrDn (.ofNum y))
  | 0x4 => .plain (.mulDnDm (.ofNum x) (.ofNum y))
  | 0x5 => .plain (.muluDnDm (.ofNum x) (.ofNum y))
  | 0x6 => .plain (.divuDnDm (.ofNum x) (.ofNum y))
  | 0x9 => .plain (.cmpDnDm (.ofNum x) (.ofNum y))
  | 0xC => match x, y with
    | _, 0 => .plain (.movDnMdr (.ofNum x))
    | _, 1 => .plain (.extDn (.ofNum x))
    | _, _ => .unassigned
  | 0xD => match x, y with
    | _, 0 => .plain (.movDnPsw (.ofNum x))
    | _, _ => .unassigned
  | 0xE => match x, y with
    | 0, _ => .plain (.movMdrDn (.ofNum y))
    | 1, _ => .plain (.notDn (.ofNum y))
    | _, _ => .unassigned
  | 0xF => match x, y with
    | 0, _ => .plain (.movPswDn (.ofNum y))
    | _, _ => .unassigned
  | _ => .unassigned

/-- Second bytes after the prefix F4, 5 bytes (R70). -/
def pageF4 (b : Byte) : Entry :=
  let x := b.toNat / 4 % 4
  let y := b.toNat % 4
  match b.toNat / 16 with
  | 0x0 => .op24 fun d => .movDmD24 (.ofNum y) d (.ofNum x)
  | 0x1 => .op24 fun d => .movAmD24 (.ofNum y) d (.ofNum x)
  | 0x2 => .op24 fun d => .movbDmD24 (.ofNum y) d (.ofNum x)
  | 0x3 => .op24 fun d => .movxDmD24 (.ofNum y) d (.ofNum x)
  | 0x4 => match x, y with
    | 0, _ => .op24 fun addr => .movDnAbs24 (.ofNum y) addr
    | 1, _ => .op24 fun addr => .movbDnAbs24 (.ofNum y) addr
    | _, _ => .unassigned
  | 0x5 => match x, y with
    | 0, _ => .op24 fun addr => .movAnAbs24 (.ofNum y) addr
    | _, _ => .unassigned
  | 0x6 => match x, y with
    | 0, _ => .op24 fun imm => .addImm24Dn imm (.ofNum y)
    | 1, _ => .op24 fun imm => .addImm24An imm (.ofNum y)
    | 2, _ => .op24 fun imm => .subImm24Dn imm (.ofNum y)
    | _, _ => .op24 fun imm => .subImm24An imm (.ofNum y)
  | 0x7 => match x, y with
    | 0, _ => .op24 fun imm => .movImm24Dn imm (.ofNum y)
    | 1, _ => .op24 fun imm => .movImm24An imm (.ofNum y)
    | 2, _ => .op24 fun imm => .cmpImm24Dn imm (.ofNum y)
    | _, _ => .op24 fun imm => .cmpImm24An imm (.ofNum y)
  | 0x8 => .op24 fun d => .movD24Dm d (.ofNum x) (.ofNum y)
  | 0x9 => .op24 fun d => .movbuD24Dm d (.ofNum x) (.ofNum y)
  | 0xA => .op24 fun d => .movbD24Dm d (.ofNum x) (.ofNum y)
  | 0xB => .op24 fun d => .movxD24Dm d (.ofNum x) (.ofNum y)
  | 0xC => match x, y with
    | 0, _ => .op24 fun addr => .movAbs24Dn addr (.ofNum y)
    | 1, _ => .op24 fun addr => .movbAbs24Dn addr (.ofNum y)
    | 2, _ => .op24 fun addr => .movbuAbs24Dn addr (.ofNum y)
    | _, _ => .unassigned
  | 0xD => match x, y with
    | 0, _ => .op24 fun addr => .movAbs24An addr (.ofNum y)
    | _, _ => .unassigned
  | 0xE => match x, y with
    | 0, 0 => .op24 fun d => .jmpLabel24 d
    | 0, 1 => .op24 fun d => .jsrLabel24 d
    | _, _ => .unassigned
  | 0xF => .op24 fun d => .movD24Am d (.ofNum x) (.ofNum y)
  | _ => .unassigned

/-- Second bytes after the prefix F5, 3 bytes (R71). -/
def pageF5 (b : Byte) : Entry :=
  let x := b.toNat / 4 % 4
  let y := b.toNat % 4
  match b.toNat / 16 with
  | 0x0 => match x, y with
    | 0, _ => .op8 fun imm => .andImm8Dn imm (.ofNum y)
    | 1, _ => .op8 fun imm => .btstImm8Dn imm (.ofNum y)
    | 2, _ => .op8 fun imm => .orImm8Dn imm (.ofNum y)
    | _, _ => .op8 fun imm => .addnfImm8An imm (.ofNum y)
  | 0x1 => .op8 fun d => .movbDmD8 (.ofNum y) d (.ofNum x)
  | 0x2 => .op8 fun d => .movbD8Dm d (.ofNum x) (.ofNum y)
  | 0x3 => .op8 fun d => .movbuD8Dm d (.ofNum x) (.ofNum y)
  | 0x5 => .op8 fun d => .movxDmD8 (.ofNum y) d (.ofNum x)
  | 0x7 => .op8 fun d => .movxD8Dm d (.ofNum x) (.ofNum y)
  | 0xE => match x, y with
    | 0, 0 => .op8 fun d => .bltx d
    | 0, 1 => .op8 fun d => .bgtx d
    | 0, 2 => .op8 fun d => .bgex d
    | 0, 3 => .op8 fun d => .blex d
    | 1, 0 => .op8 fun d => .bcsx d
    | 1, 1 => .op8 fun d => .bhix d
    | 1, 2 => .op8 fun d => .bccx d
    | 1, 3 => .op8 fun d => .blsx d
    | 2, 0 => .op8 fun d => .beqx d
    | 2, 1 => .op8 fun d => .bnex d
    | 3, 0 => .op8 fun d => .bvcx d
    | 3, 1 => .op8 fun d => .bvsx d
    | 3, 2 => .op8 fun d => .bncx d
    | 3, 3 => .op8 fun d => .bnsx d
    | _, _ => .unassigned
  | 0xF => match x, y with
    | 3, 0 => .op8 fun d => .bvc d
    | 3, 1 => .op8 fun d => .bvs d
    | 3, 2 => .op8 fun d => .bnc d
    | 3, 3 => .op8 fun d => .bns d
    | _, _ => .unassigned
  | _ => .unassigned

/-- Second bytes after the prefix F7, 4 bytes (R72). -/
def pageF7 (b : Byte) : Entry :=
  let x := b.toNat / 4 % 4
  let y := b.toNat % 4
  match b.toNat / 16 with
  | 0x0 => match x, y with
    | 0, _ => .op16 fun imm => .andImm16Dn imm (.ofNum y)
    | 1, _ => .op16 fun imm => .btstImm16Dn imm (.ofNum y)
    | 2, _ => .op16 fun imm => .addImm16An imm (.ofNum y)
    | _, _ => .op16 fun imm => .subImm16An imm (.ofNum y)
  | 0x1 => match x, y with
    | 0, 0 => .op16 fun imm => .andImm16Psw imm
    | 1, 0 => .op16 fun imm => .orImm16Psw imm
    | 2, _ => .op16 fun imm => .addImm16Dn imm (.ofNum y)
    | 3, _ => .op16 fun imm => .subImm16Dn imm (.ofNum y)
    | _, _ => .unassigned
  | 0x2 => match x, y with
    | 0, _ => .op16 fun addr => .movAnAbs16 (.ofNum y) addr
    | _, _ => .unassigned
  | 0x3 => match x, y with
    | 0, _ => .op16 fun addr => .movAbs16An addr (.ofNum y)
    | _, _ => .unassigned
  | 0x4 => match x, y with
    | 0, _ => .op16 fun imm => .orImm16Dn imm (.ofNum y)
    | 2, _ => .op16 fun imm => .cmpImm16Dn imm (.ofNum y)
    | 3, _ => .op16 fun imm => .xorImm16Dn imm (.ofNum y)
    | _, _ => .unassigned
  | 0x5 => .op16 fun d => .movbuD16Dm d (.ofNum x) (.ofNum y)
  | 0x6 => .op16 fun d => .movxDmD16 (.ofNum y) d (.ofNum x)
  | 0x7 => .op16 fun d => .movxD16Dm d (.ofNum x) (.ofNum y)
  | 0x8 => .op16 fun d => .movDmD16 (.ofNum y) d (.ofNum x)
  | 0x9 => .op16 fun d => .movbDmD16 (.ofNum y) d (.ofNum x)
  | 0xA => .op16 fun d => .movAmD16 (.ofNum y) d (.ofNum x)
  | 0xB => .op16 fun d => .movD16Am d (.ofNum x) (.ofNum y)
  | 0xC => .op16 fun d => .movD16Dm d (.ofNum x) (.ofNum y)
  | 0xD => .op16 fun d => .movbD16Dm d (.ofNum x) (.ofNum y)
  | _ => .unassigned

/-- The second-byte map of a prefix (R66 to R72). -/
def secondByte : Prefix → Byte → Entry
  | .f0 => pageF0
  | .f1 => pageF1
  | .f2 => pageF2
  | .f3 => pageF3
  | .f4 => pageF4
  | .f5 => pageF5
  | .f7 => pageF7

/-- Read the operand bytes a cell asks for, low byte first (R42, R63). -/
def operand : Entry → List Byte → Decoded
  | .plain i, bs => .ok i bs
  | .op8 f, b0 :: bs => .ok (f b0) bs
  | .op16 f, b0 :: b1 :: bs => .ok (f (b1 ++ b0)) bs
  | .op24 f, b0 :: b1 :: b2 :: bs => .ok (f (b2 ++ b1 ++ b0)) bs
  | .unassigned, _ => .undefined
  | .extended _, _ => .undefined
  | _, _ => .short

/-- Decode the bytes from an instruction's first byte on (R64). Total: every run of bytes is an instruction with the
bytes after it, an unassigned code, or too short. It answers hardware forms only, never an assembler form (R86). -/
def decode : List Byte → Decoded
  | [] => .short
  | b0 :: bs =>
    match firstByte b0 with
    | .extended p =>
      match bs with
      | [] => .short
      | b1 :: bs' => operand (secondByte p b1) bs'
    | e => operand e bs

/-- The length in bytes (R60). The two-instruction assembler forms count both instructions (R83). -/
def Instr.length : Instr → Nat
  | .movDmAn _ _ => 2
  | .movAnDm _ _ => 2
  | .movDnDm _ _ => 1
  | .movAnAm _ _ => 2
  | .movPswDn _ => 2
  | .movDnPsw _ => 2
  | .movMdrDn _ => 2
  | .movDnMdr _ => 2
  | .movIndDm _ _ => 1
  | .movD8Dm _ _ _ => 2
  | .movD16Dm _ _ _ => 4
  | .movD24Dm _ _ _ => 5
  | .movIdxDm _ _ _ => 2
  | .movAbs16Dn _ _ => 3
  | .movAbs24Dn _ _ => 5
  | .movD8Am _ _ _ => 2
  | .movD16Am _ _ _ => 4
  | .movD24Am _ _ _ => 5
  | .movAbs16An _ _ => 4
  | .movAbs24An _ _ => 5
  | .movDmInd _ _ => 1
  | .movDmD8 _ _ _ => 2
  | .movDmD16 _ _ _ => 4
  | .movDmD24 _ _ _ => 5
  | .movDmIdx _ _ _ => 2
  | .movDnAbs16 _ _ => 3
  | .movDnAbs24 _ _ => 5
  | .movAmD8 _ _ _ => 2
  | .movAmD16 _ _ _ => 4
  | .movAmD24 _ _ _ => 5
  | .movAnAbs16 _ _ => 4
  | .movAnAbs24 _ _ => 5
  | .movImm8Dn _ _ => 2
  | .movImm16Dn _ _ => 3
  | .movImm24Dn _ _ => 5
  | .movImm16An _ _ => 3
  | .movImm24An _ _ => 5
  | .movxD8Dm _ _ _ => 3
  | .movxD16Dm _ _ _ => 4
  | .movxD24Dm _ _ _ => 5
  | .movxDmD8 _ _ _ => 3
  | .movxDmD16 _ _ _ => 4
  | .movxDmD24 _ _ _ => 5
  | .movbD8Dm _ _ _ => 3
  | .movbD16Dm _ _ _ => 4
  | .movbD24Dm _ _ _ => 5
  | .movbIdxDm _ _ _ => 2
  | .movbAbs24Dn _ _ => 5
  | .movbDmInd _ _ => 1
  | .movbDmD8 _ _ _ => 3
  | .movbDmD16 _ _ _ => 4
  | .movbDmD24 _ _ _ => 5
  | .movbDmIdx _ _ _ => 2
  | .movbDnAbs16 _ _ => 3
  | .movbDnAbs24 _ _ => 5
  | .movbuIndDm _ _ => 1
  | .movbuD8Dm _ _ _ => 3
  | .movbuD16Dm _ _ _ => 4
  | .movbuD24Dm _ _ _ => 5
  | .movbuIdxDm _ _ _ => 2
  | .movbuAbs16Dn _ _ => 3
  | .movbuAbs24Dn _ _ => 5
  | .extDn _ => 2
  | .extxDn _ => 1
  | .extxuDn _ => 1
  | .extxbDn _ => 1
  | .extxbuDn _ => 1
  | .addDnDm _ _ => 1
  | .addDmAn _ _ => 2
  | .addAnDm _ _ => 2
  | .addAnAm _ _ => 2
  | .addImm8Dn _ _ => 2
  | .addImm16Dn _ _ => 4
  | .addImm24Dn _ _ => 5
  | .addImm8An _ _ => 2
  | .addImm16An _ _ => 4
  | .addImm24An _ _ => 5
  | .addcDnDm _ _ => 2
  | .addnfImm8An _ _ => 3
  | .subDnDm _ _ => 1
  | .subDmAn _ _ => 2
  | .subAnDm _ _ => 2
  | .subAnAm _ _ => 2
  | .subImm16Dn _ _ => 4
  | .subImm24Dn _ _ => 5
  | .subImm16An _ _ => 4
  | .subImm24An _ _ => 5
  | .subcDnDm _ _ => 2
  | .mulDnDm _ _ => 2
  | .muluDnDm _ _ => 2
  | .divuDnDm _ _ => 2
  | .cmpDnDm _ _ => 2
  | .cmpDmAn _ _ => 2
  | .cmpAnDm _ _ => 2
  | .cmpAnAm _ _ => 2
  | .cmpImm8Dn _ _ => 2
  | .cmpImm16Dn _ _ => 4
  | .cmpImm24Dn _ _ => 5
  | .cmpImm16An _ _ => 3
  | .cmpImm24An _ _ => 5
  | .andDnDm _ _ => 2
  | .andImm8Dn _ _ => 3
  | .andImm16Dn _ _ => 4
  | .andImm16Psw _ => 4
  | .orDnDm _ _ => 2
  | .orImm8Dn _ _ => 3
  | .orImm16Dn _ _ => 4
  | .orImm16Psw _ => 4
  | .xorDnDm _ _ => 2
  | .xorImm16Dn _ _ => 4
  | .notDn _ => 2
  | .asrDn _ => 2
  | .lsrDn _ => 2
  | .rorDn _ => 2
  | .rolDn _ => 2
  | .btstImm8Dn _ _ => 3
  | .btstImm16Dn _ _ => 4
  | .bsetDmInd _ _ => 2
  | .bclrDmInd _ _ => 2
  | .beq _ => 2
  | .bne _ => 2
  | .blt _ => 2
  | .ble _ => 2
  | .bge _ => 2
  | .bgt _ => 2
  | .bcs _ => 2
  | .bls _ => 2
  | .bcc _ => 2
  | .bhi _ => 2
  | .bvc _ => 3
  | .bvs _ => 3
  | .bnc _ => 3
  | .bns _ => 3
  | .bra _ => 2
  | .beqx _ => 3
  | .bnex _ => 3
  | .bltx _ => 3
  | .blex _ => 3
  | .bgex _ => 3
  | .bgtx _ => 3
  | .bcsx _ => 3
  | .blsx _ => 3
  | .bccx _ => 3
  | .bhix _ => 3
  | .bvcx _ => 3
  | .bvsx _ => 3
  | .bncx _ => 3
  | .bnsx _ => 3
  | .jmpLabel16 _ => 3
  | .jmpLabel24 _ => 5
  | .jmpInd _ => 2
  | .jsrLabel16 _ => 3
  | .jsrLabel24 _ => 5
  | .jsrInd _ => 2
  | .nop => 1
  | .rts => 1
  | .rti => 1
  | .movIndAm _ _ => 2
  | .movAmInd _ _ => 2
  | .movbIndDm _ _ => 2
  | .movbAbs16Dn _ _ => 4

/-- One operation-code byte: `base` plus the first register's number in bits 3..2 and the second's in bits 1..0 (R62). -/
def opByte (base x y : Nat) : Byte := BitVec.ofNat 8 (base + 4 * x + y)

/-- A byte as a run of bytes. -/
def le8 (v : Byte) : List Byte := [v]

/-- A word as two bytes, the low byte first (R42, R43). -/
def le16 (v : Word) : List Byte := [v.extractLsb' 0 8, v.extractLsb' 8 8]

/-- A 24-bit value as three bytes, the low byte first (R42, R43). -/
def le24 (v : Ptr) : List Byte := [v.extractLsb' 0 8, v.extractLsb' 8 8, v.extractLsb' 16 8]

/-- The bytes of an instruction in the order they stand in memory, from the code expression of each form's own rule.
An assembler form gives the bytes of its expansion (R83). -/
def encode : Instr → List Byte
  | .movDmAn m n => [0xF2, opByte 0x30 m.num n.num]
  | .movAnDm n m => [0xF2, opByte 0xF0 n.num m.num]
  | .movDnDm n m => [opByte 0x80 n.num m.num]
  | .movAnAm n m => [0xF2, opByte 0x70 n.num m.num]
  | .movPswDn n => [0xF3, opByte 0xF0 0 n.num]
  | .movDnPsw n => [0xF3, opByte 0xD0 n.num 0]
  | .movMdrDn n => [0xF3, opByte 0xE0 0 n.num]
  | .movDnMdr n => [0xF3, opByte 0xC0 n.num 0]
  | .movIndDm n m => [opByte 0x20 n.num m.num]
  | .movD8Dm d n m => [opByte 0x60 n.num m.num] ++ le8 d
  | .movD16Dm d n m => [0xF7, opByte 0xC0 n.num m.num] ++ le16 d
  | .movD24Dm d n m => [0xF4, opByte 0x80 n.num m.num] ++ le24 d
  | .movIdxDm x n m => [0xF1, opByte (0x40 + 16 * x.num) n.num m.num]
  | .movAbs16Dn addr n => [opByte 0xC8 0 n.num] ++ le16 addr
  | .movAbs24Dn addr n => [0xF4, opByte 0xC0 0 n.num] ++ le24 addr
  | .movD8Am d n m => [opByte 0x70 n.num m.num] ++ le8 d
  | .movD16Am d n m => [0xF7, opByte 0xB0 n.num m.num] ++ le16 d
  | .movD24Am d n m => [0xF4, opByte 0xF0 n.num m.num] ++ le24 d
  | .movAbs16An addr n => [0xF7, opByte 0x30 0 n.num] ++ le16 addr
  | .movAbs24An addr n => [0xF4, opByte 0xD0 0 n.num] ++ le24 addr
  | .movDmInd m n => [opByte 0x00 n.num m.num]
  | .movDmD8 m d n => [opByte 0x40 n.num m.num] ++ le8 d
  | .movDmD16 m d n => [0xF7, opByte 0x80 n.num m.num] ++ le16 d
  | .movDmD24 m d n => [0xF4, opByte 0x00 n.num m.num] ++ le24 d
  | .movDmIdx m x n => [0xF1, opByte (0xC0 + 16 * x.num) n.num m.num]
  | .movDnAbs16 n addr => [opByte 0xC0 0 n.num] ++ le16 addr
  | .movDnAbs24 n addr => [0xF4, opByte 0x40 0 n.num] ++ le24 addr
  | .movAmD8 m d n => [opByte 0x50 n.num m.num] ++ le8 d
  | .movAmD16 m d n => [0xF7, opByte 0xA0 n.num m.num] ++ le16 d
  | .movAmD24 m d n => [0xF4, opByte 0x10 n.num m.num] ++ le24 d
  | .movAnAbs16 n addr => [0xF7, opByte 0x20 0 n.num] ++ le16 addr
  | .movAnAbs24 n addr => [0xF4, opByte 0x50 0 n.num] ++ le24 addr
  | .movImm8Dn imm n => [opByte 0x80 n.num n.num] ++ le8 imm
  | .movImm16Dn imm n => [opByte 0xF8 0 n.num] ++ le16 imm
  | .movImm24Dn imm n => [0xF4, opByte 0x70 0 n.num] ++ le24 imm
  | .movImm16An imm n => [opByte 0xDC 0 n.num] ++ le16 imm
  | .movImm24An imm n => [0xF4, opByte 0x74 0 n.num] ++ le24 imm
  | .movxD8Dm d n m => [0xF5, opByte 0x70 n.num m.num] ++ le8 d
  | .movxD16Dm d n m => [0xF7, opByte 0x70 n.num m.num] ++ le16 d
  | .movxD24Dm d n m => [0xF4, opByte 0xB0 n.num m.num] ++ le24 d
  | .movxDmD8 m d n => [0xF5, opByte 0x50 n.num m.num] ++ le8 d
  | .movxDmD16 m d n => [0xF7, opByte 0x60 n.num m.num] ++ le16 d
  | .movxDmD24 m d n => [0xF4, opByte 0x30 n.num m.num] ++ le24 d
  | .movbD8Dm d n m => [0xF5, opByte 0x20 n.num m.num] ++ le8 d
  | .movbD16Dm d n m => [0xF7, opByte 0xD0 n.num m.num] ++ le16 d
  | .movbD24Dm d n m => [0xF4, opByte 0xA0 n.num m.num] ++ le24 d
  | .movbIdxDm x n m => [0xF0, opByte (0x40 + 16 * x.num) n.num m.num]
  | .movbAbs24Dn addr n => [0xF4, opByte 0xC4 0 n.num] ++ le24 addr
  | .movbDmInd m n => [opByte 0x10 m.num n.num]
  | .movbDmD8 m d n => [0xF5, opByte 0x10 n.num m.num] ++ le8 d
  | .movbDmD16 m d n => [0xF7, opByte 0x90 n.num m.num] ++ le16 d
  | .movbDmD24 m d n => [0xF4, opByte 0x20 n.num m.num] ++ le24 d
  | .movbDmIdx m x n => [0xF0, opByte (0xC0 + 16 * x.num) n.num m.num]
  | .movbDnAbs16 n addr => [opByte 0xC4 0 n.num] ++ le16 addr
  | .movbDnAbs24 n addr => [0xF4, opByte 0x44 0 n.num] ++ le24 addr
  | .movbuIndDm n m => [opByte 0x30 n.num m.num]
  | .movbuD8Dm d n m => [0xF5, opByte 0x30 n.num m.num] ++ le8 d
  | .movbuD16Dm d n m => [0xF7, opByte 0x50 n.num m.num] ++ le16 d
  | .movbuD24Dm d n m => [0xF4, opByte 0x90 n.num m.num] ++ le24 d
  | .movbuIdxDm x n m => [0xF0, opByte (0x80 + 16 * x.num) n.num m.num]
  | .movbuAbs16Dn addr n => [opByte 0xCC 0 n.num] ++ le16 addr
  | .movbuAbs24Dn addr n => [0xF4, opByte 0xC8 0 n.num] ++ le24 addr
  | .extDn n => [0xF3, opByte 0xC1 n.num 0]
  | .extxDn n => [opByte 0xB0 0 n.num]
  | .extxuDn n => [opByte 0xB4 0 n.num]
  | .extxbDn n => [opByte 0xB8 0 n.num]
  | .extxbuDn n => [opByte 0xBC 0 n.num]
  | .addDnDm n m => [opByte 0x90 n.num m.num]
  | .addDmAn m n => [0xF2, opByte 0x00 m.num n.num]
  | .addAnDm n m => [0xF2, opByte 0xC0 n.num m.num]
  | .addAnAm n m => [0xF2, opByte 0x40 n.num m.num]
  | .addImm8Dn imm n => [opByte 0xD4 0 n.num] ++ le8 imm
  | .addImm16Dn imm n => [0xF7, opByte 0x18 0 n.num] ++ le16 imm
  | .addImm24Dn imm n => [0xF4, opByte 0x60 0 n.num] ++ le24 imm
  | .addImm8An imm n => [opByte 0xD0 0 n.num] ++ le8 imm
  | .addImm16An imm n => [0xF7, opByte 0x08 0 n.num] ++ le16 imm
  | .addImm24An imm n => [0xF4, opByte 0x64 0 n.num] ++ le24 imm
  | .addcDnDm n m => [0xF2, opByte 0x80 n.num m.num]
  | .addnfImm8An imm n => [0xF5, opByte 0x0C 0 n.num] ++ le8 imm
  | .subDnDm n m => [opByte 0xA0 n.num m.num]
  | .subDmAn m n => [0xF2, opByte 0x10 m.num n.num]
  | .subAnDm n m => [0xF2, opByte 0xD0 n.num m.num]
  | .subAnAm n m => [0xF2, opByte 0x50 n.num m.num]
  | .subImm16Dn imm n => [0xF7, opByte 0x1C 0 n.num] ++ le16 imm
  | .subImm24Dn imm n => [0xF4, opByte 0x68 0 n.num] ++ le24 imm
  | .subImm16An imm n => [0xF7, opByte 0x0C 0 n.num] ++ le16 imm
  | .subImm24An imm n => [0xF4, opByte 0x6C 0 n.num] ++ le24 imm
  | .subcDnDm n m => [0xF2, opByte 0x90 n.num m.num]
  | .mulDnDm n m => [0xF3, opByte 0x40 n.num m.num]
  | .muluDnDm n m => [0xF3, opByte 0x50 n.num m.num]
  | .divuDnDm n m => [0xF3, opByte 0x60 n.num m.num]
  | .cmpDnDm n m => [0xF3, opByte 0x90 n.num m.num]
  | .cmpDmAn m n => [0xF2, opByte 0x20 m.num n.num]
  | .cmpAnDm n m => [0xF2, opByte 0xE0 n.num m.num]
  | .cmpAnAm n m => [0xF2, opByte 0x60 n.num m.num]
  | .cmpImm8Dn imm n => [opByte 0xD8 0 n.num] ++ le8 imm
  | .cmpImm16Dn imm n => [0xF7, opByte 0x48 0 n.num] ++ le16 imm
  | .cmpImm24Dn imm n => [0xF4, opByte 0x78 0 n.num] ++ le24 imm
  | .cmpImm16An imm n => [opByte 0xEC 0 n.num] ++ le16 imm
  | .cmpImm24An imm n => [0xF4, opByte 0x7C 0 n.num] ++ le24 imm
  | .andDnDm n m => [0xF3, opByte 0x00 n.num m.num]
  | .andImm8Dn imm n => [0xF5, opByte 0x00 0 n.num] ++ le8 imm
  | .andImm16Dn imm n => [0xF7, opByte 0x00 0 n.num] ++ le16 imm
  | .andImm16Psw imm => [0xF7, 0x10] ++ le16 imm
  | .orDnDm n m => [0xF3, opByte 0x10 n.num m.num]
  | .orImm8Dn imm n => [0xF5, opByte 0x08 0 n.num] ++ le8 imm
  | .orImm16Dn imm n => [0xF7, opByte 0x40 0 n.num] ++ le16 imm
  | .orImm16Psw imm => [0xF7, 0x14] ++ le16 imm
  | .xorDnDm n m => [0xF3, opByte 0x20 n.num m.num]
  | .xorImm16Dn imm n => [0xF7, opByte 0x4C 0 n.num] ++ le16 imm
  | .notDn n => [0xF3, opByte 0xE4 0 n.num]
  | .asrDn n => [0xF3, opByte 0x38 0 n.num]
  | .lsrDn n => [0xF3, opByte 0x3C 0 n.num]
  | .rorDn n => [0xF3, opByte 0x34 0 n.num]
  | .rolDn n => [0xF3, opByte 0x30 0 n.num]
  | .btstImm8Dn imm n => [0xF5, opByte 0x04 0 n.num] ++ le8 imm
  | .btstImm16Dn imm n => [0xF7, opByte 0x04 0 n.num] ++ le16 imm
  | .bsetDmInd m n => [0xF0, opByte 0x20 n.num m.num]
  | .bclrDmInd m n => [0xF0, opByte 0x30 n.num m.num]
  | .beq d => [0xE8] ++ le8 d
  | .bne d => [0xE9] ++ le8 d
  | .blt d => [0xE0] ++ le8 d
  | .ble d => [0xE3] ++ le8 d
  | .bge d => [0xE2] ++ le8 d
  | .bgt d => [0xE1] ++ le8 d
  | .bcs d => [0xE4] ++ le8 d
  | .bls d => [0xE7] ++ le8 d
  | .bcc d => [0xE6] ++ le8 d
  | .bhi d => [0xE5] ++ le8 d
  | .bvc d => [0xF5, 0xFC] ++ le8 d
  | .bvs d => [0xF5, 0xFD] ++ le8 d
  | .bnc d => [0xF5, 0xFE] ++ le8 d
  | .bns d => [0xF5, 0xFF] ++ le8 d
  | .bra d => [0xEA] ++ le8 d
  | .beqx d => [0xF5, 0xE8] ++ le8 d
  | .bnex d => [0xF5, 0xE9] ++ le8 d
  | .bltx d => [0xF5, 0xE0] ++ le8 d
  | .blex d => [0xF5, 0xE3] ++ le8 d
  | .bgex d => [0xF5, 0xE2] ++ le8 d
  | .bgtx d => [0xF5, 0xE1] ++ le8 d
  | .bcsx d => [0xF5, 0xE4] ++ le8 d
  | .blsx d => [0xF5, 0xE7] ++ le8 d
  | .bccx d => [0xF5, 0xE6] ++ le8 d
  | .bhix d => [0xF5, 0xE5] ++ le8 d
  | .bvcx d => [0xF5, 0xEC] ++ le8 d
  | .bvsx d => [0xF5, 0xED] ++ le8 d
  | .bncx d => [0xF5, 0xEE] ++ le8 d
  | .bnsx d => [0xF5, 0xEF] ++ le8 d
  | .jmpLabel16 d => [0xFC] ++ le16 d
  | .jmpLabel24 d => [0xF4, 0xE0] ++ le24 d
  | .jmpInd n => [0xF0, opByte 0x00 n.num 0]
  | .jsrLabel16 d => [0xFD] ++ le16 d
  | .jsrLabel24 d => [0xF4, 0xE1] ++ le24 d
  | .jsrInd n => [0xF0, opByte 0x01 n.num 0]
  | .nop => [0xF6]
  | .rts => [0xFE]
  | .rti => [0xEB]
  | .movIndAm n m => [opByte 0x70 n.num m.num, 0x00]
  | .movAmInd m n => [opByte 0x50 n.num m.num, 0x00]
  | .movbIndDm n m => [opByte 0x30 n.num m.num, opByte 0xB8 0 m.num]
  | .movbAbs16Dn addr n => [opByte 0xCC 0 n.num] ++ le16 addr ++ [opByte 0xB8 0 n.num]

/-- The `k` low bytes of `w`, the lowest first. -/
def bytesOf : Nat → Nat → List Byte
  | 0, _ => []
  | k + 1, w => BitVec.ofNat 8 w :: bytesOf k (w / 256)

/-- The bytes of a table word of `nbits` bits: bit 0 of `w` is bit 0 of the first byte, and every byte up to the longest
instruction (5 bytes, R60) beyond `nbits` is 0. -/
def tableBytes (nbits w : Nat) : List Byte := bytesOf 5 (w % 2 ^ nbits)

/-- The instruction the decoder reads from a table word. -/
def decodeTableWord (nbits w : Nat) : Option Instr :=
  match decode (tableBytes nbits w) with
  | .ok i _ => some i
  | _ => none

end Sys2Proof
end

