-- ==== Sys2Proof/Machine/Flags.lean ====
section
/-! DEFINITION. The PSW's fields (10_state.md R18), the flags of additions and subtractions (42_arithmetic.md R180, R181)
and the branch conditions (45_branch.md R270). -/

namespace Sys2Proof.Machine

/-- PSW bit 0: zero flag of the low 16 bits (R18, R19). -/
def pswZF (p : Word) : Bool := p.getLsbD 0
/-- PSW bit 1: negative flag, bit 15 (R18, R19). -/
def pswNF (p : Word) : Bool := p.getLsbD 1
/-- PSW bit 2: carry or borrow of bit 15 (R18, R19). -/
def pswCF (p : Word) : Bool := p.getLsbD 2
/-- PSW bit 3: overflow as a 16-bit signed value (R18, R19). -/
def pswVF (p : Word) : Bool := p.getLsbD 3
/-- PSW bit 4: zero flag of all 24 bits (R18, R19). -/
def pswZX (p : Word) : Bool := p.getLsbD 4
/-- PSW bit 5: extended negative flag, bit 23 (R18, R19). -/
def pswNX (p : Word) : Bool := p.getLsbD 5
/-- PSW bit 6: carry or borrow of bit 23 (R18, R19). -/
def pswCX (p : Word) : Bool := p.getLsbD 6
/-- PSW bit 7: overflow as a 24-bit signed value (R18, R19). -/
def pswVX (p : Word) : Bool := p.getLsbD 7

/-- PSW.IM, the number IM2::IM1::IM0 (R20); its lowest bit is bit `pos`, PSW_IM_POS (R18). -/
def pswIM (pos : Nat) (p : Word) : Nat := (p >>> pos).toNat % 8
/-- PSW bit 11: interrupt enable (R18, R21). -/
def pswIE (p : Word) : Bool := p.getLsbD 11
/-- Software bit S0: storage without effect (R22); bit `pos`, PSW_S_POS (R18). -/
def pswS0 (pos : Nat) (p : Word) : Bool := p.getLsbD pos
/-- Software bit S1: storage without effect (R22); the bit above S0. -/
def pswS1 (pos : Nat) (p : Word) : Bool := p.getLsbD (pos + 1)

/-- `PSW.IE <- 0` (R336). -/
def pswClearIE (p : Word) : Word := p &&& 0xF7FF

/-- `PSW.IM <- level` (R336), IM's lowest bit being bit `pos`. -/
def pswSetIM (pos : Nat) (p : Word) (level : Nat) : Word :=
  (p &&& ~~~((7 : Word) <<< pos)) ||| (BitVec.ofNat 16 (level % 8) <<< pos)

/-- The eight result flags (R19). -/
structure ResultFlags where
  vx : Bool
  cx : Bool
  nx : Bool
  zx : Bool
  vf : Bool
  cf : Bool
  nf : Bool
  zf : Bool
deriving DecidableEq, Repr

/-- The low byte of the PSW with these flags: VX is bit 7, ZF bit 0 (R18). -/
def ResultFlags.toByte (f : ResultFlags) : Byte :=
  BitVec.ofBool f.vx ++ BitVec.ofBool f.cx ++ BitVec.ofBool f.nx ++ BitVec.ofBool f.zx ++
    BitVec.ofBool f.vf ++ BitVec.ofBool f.cf ++ BitVec.ofBool f.nf ++ BitVec.ofBool f.zf

/-- The PSW with all eight flags replaced; bits 15..8 stay (R24, R182). -/
def pswSetFlags (p : Word) (f : ResultFlags) : Word := p.extractLsb' 8 8 ++ f.toByte

/-- The PSW with VF, CF, NF and ZF replaced; VX, CX, NX, ZX and bits 15..8 stay (R24, R230, R265). -/
def pswSetLowFlags (p : Word) (vf cf nf zf : Bool) : Word :=
  p.extractLsb' 4 12 ++ (BitVec.ofBool vf ++ BitVec.ofBool cf ++ BitVec.ofBool nf ++ BitVec.ofBool zf)

/-- Bits 15..0 as a number. -/
def low16Nat (v : Ptr) : Nat := v.toNat % 2 ^ 16

/-- The result of AddFlags: `(a + b + cin) mod 2^24` (R180). -/
def addResult (a b : Ptr) (cin : Bool) : Ptr := BitVec.ofNat 24 (a.toNat + b.toNat + cin.toNat)

/-- The flags of AddFlags (R180). The overflow formulas are the spec's reading of "overflows" (DEDUCED, log 32). -/
def addFlags (a b : Ptr) (cin : Bool) : ResultFlags :=
  let r := addResult a b cin
  { vx := (a.getLsbD 23 == b.getLsbD 23) && (r.getLsbD 23 != a.getLsbD 23)
    cx := decide (2 ^ 24 ≤ a.toNat + b.toNat + cin.toNat)
    nx := r.getLsbD 23
    zx := decide (r = 0)
    vf := (a.getLsbD 15 == b.getLsbD 15) && (r.getLsbD 15 != a.getLsbD 15)
    cf := decide (2 ^ 16 ≤ low16Nat a + low16Nat b + cin.toNat)
    nf := r.getLsbD 15
    zf := decide (low16Nat r = 0) }

/-- The result of SubFlags: `(a - b - bin) mod 2^24` (R181). -/
def subResult (a b : Ptr) (bin : Bool) : Ptr :=
  BitVec.ofInt 24 ((a.toNat : Int) - b.toNat - bin.toNat)

/-- The flags of SubFlags (R181). CX and CF are 1 on borrow (DEDUCED, log 32). -/
def subFlags (a b : Ptr) (bin : Bool) : ResultFlags :=
  let r := subResult a b bin
  { vx := (a.getLsbD 23 != b.getLsbD 23) && (r.getLsbD 23 != a.getLsbD 23)
    cx := decide ((a.toNat : Int) - b.toNat - bin.toNat < 0)
    nx := r.getLsbD 23
    zx := decide (r = 0)
    vf := (a.getLsbD 15 != b.getLsbD 15) && (r.getLsbD 15 != a.getLsbD 15)
    cf := decide ((low16Nat a : Int) - low16Nat b - bin.toNat < 0)
    nf := r.getLsbD 15
    zf := decide (low16Nat r = 0) }

/-- ADDC and SUBC: "ZF: Set if ZF=1 and the lower 16 bits of the result are 0" (R193, R203). -/
def ResultFlags.accumulateZF (f : ResultFlags) (oldZF : Bool) : ResultFlags := { f with zf := oldZF && f.zf }

/-- The fourteen branch conditions (R270). -/
inductive Cond where
  | eq | ne | lt | le | ge | gt | cs | ls | cc | hi | vc | vs | nc | ns
deriving DecidableEq, Repr

/-- When a condition holds, of the flags V, C, N, Z (R270). -/
def Cond.holds (c : Cond) (v cy n z : Bool) : Bool :=
  match c with
  | .eq => z
  | .ne => !z
  | .lt => v ^^ n
  | .le => (v ^^ n) || z
  | .ge => !(v ^^ n)
  | .gt => !((v ^^ n) || z)
  | .cs => cy
  | .ls => cy || z
  | .cc => !cy
  | .hi => !(cy || z)
  | .vc => !v
  | .vs => v
  | .nc => !n
  | .ns => n

/-- The 16-bit forms test VF, CF, NF, ZF (R270). -/
def Cond.holds16 (c : Cond) (p : Word) : Bool := c.holds (pswVF p) (pswCF p) (pswNF p) (pswZF p)

/-- The extended forms test VX, CX, NX, ZX (R270). -/
def Cond.holdsX (c : Cond) (p : Word) : Bool := c.holds (pswVX p) (pswCX p) (pswNX p) (pswZX p)

end Sys2Proof.Machine
end

