-- ==== Sys2Proof/Config.lean ====
section
/-! DEFINITION. What the platform fixes (the parameters of spec/00_scope.md R8, as plain data) and the free values
(the `undef_N()` draws of R9 and the bytes devices supply, R41), which are constants with no body. -/

namespace Sys2Proof

/-- What a store to a ROM address does: "platform-defined" (R41), so part of MEM_MAP (D11; log 11). -/
inductive RomStore where
  /-- the byte keeps its contents and the machine goes on -/
  | ignored
  /-- the platform does not define the store: the model stops (Fault.romStore) -/
  | stops
deriving DecidableEq, Repr

/-- What MEM_MAP says of an address: RAM, ROM, a device register, or nothing (R41, D11). -/
inductive MemKind where
  | ram
  | rom (onStore : RomStore)
  | device
  | unmapped
deriving DecidableEq, Repr

/-- A run of `size` addresses from `base` on that are all of one kind. -/
structure Region where
  base : Nat
  size : Nat
  kind : MemKind
deriving DecidableEq, Repr

/-- MEM_MAP (R41): the first region that covers an address gives its kind, `other` the kind of the rest. -/
structure MemMap where
  regions : List Region
  other : MemKind
deriving DecidableEq, Repr

/-- A run of `size` addresses from `base` on: CODE_REGION is a list of them (R52). -/
structure AddrRange where
  base : Nat
  size : Nat
deriving DecidableEq, Repr

/-- IRQ_ENTRY(level, nmi) (R336): the entry address of each maskable level and of a non-maskable request. -/
structure IrqEntry where
  level0 : Ptr
  level1 : Ptr
  level2 : Ptr
  level3 : Ptr
  level4 : Ptr
  level5 : Ptr
  level6 : Ptr
  nmi : Ptr
deriving DecidableEq, Repr

/-- A row of a table IRQ_ACCEPT: a maskable request of that level is accepted at every PSW that agrees with `value` in
the bits of `mask`. -/
structure AcceptRow where
  level : Fin 7
  mask : Word
  value : Word
deriving DecidableEq, Repr

/-- IRQ_ACCEPT(PSW, request) for maskable requests (R8, R333, D5), as plain data. Every predicate over PSW and level is a
table. What the source itself fixes is no part of the parameter: IE = 0 admits no maskable request, and a non-maskable one
is always accepted (log 16). -/
inductive IrqAccept where
  /-- the spec's decision: the level is below PSW.IM -/
  | belowMask
  /-- the requests that some row admits -/
  | rows (table : List AcceptRow)
deriving DecidableEq, Repr

/-- The parameters R8 leaves to the platform, but for IRQ_SOURCE, the list of events in State (log 15), and END_PC, which
only the harness reads (log 31). They stand in State, so that a statement about every state is a statement about every
platform; no step changes them (log 4). -/
structure Platform where
  memMap : MemMap
  codeRegion : List AddrRange
  resetPc : Ptr
  irqEntry : IrqEntry
  /-- PSW_IM_POS: the lowest of the three bits of IM (R18, D1; log 14) -/
  pswImPos : Nat
  /-- PSW_S_POS: the bit of S0, S1 being the next (R18, D1; log 14) -/
  pswSPos : Nat
  /-- IRQ_ACCEPT (R333; log 16) -/
  irqAccept : IrqAccept
deriving DecidableEq, Repr

/-- The family's common interrupt entry x'080008' (R336, K4). PRESUMED, unsafe, log 17. -/
def IrqEntry.family : IrqEntry :=
  { level0 := 0x080008, level1 := 0x080008, level2 := 0x080008, level3 := 0x080008,
    level4 := 0x080008, level5 := 0x080008, level6 := 0x080008, nmi := 0x080008 }

/-- The platform State.reset names: RAM at every address and no code region (DESIGN CHOICE, unsafe, log 4),
RESET_PC = x'080000' (R361, K5; PRESUMED, unsafe, log 2), IM in PSW bits 10..8 and S1, S0 in bits 13, 12 (R18, D1;
PRESUMED, unsafe, log 14), acceptance by `level < IM` (R333, D5; PRESUMED, unsafe, log 16). -/
def Platform.bare : Platform :=
  { memMap := { regions := [], other := .ram }, codeRegion := [], resetPc := 0x080000,
    irqEntry := IrqEntry.family, pswImPos := 8, pswSPos := 12, irqAccept := .belowMask }

/-- The k-th free bit: `undef_1()` (R9). No body: nothing can be proved of its value. Safe, log 12. -/
opaque Config.undefBit (k : Nat) : Bool

/-- The k-th free byte: `undef_8()` (R9, R52). Safe, log 8. -/
opaque Config.undefByte (k : Nat) : Byte

/-- The k-th free word: `undef_16()` (R9, R206). Safe, log 12. -/
opaque Config.undefWord (k : Nat) : Word

/-- The k-th free 24-bit value: `undef_24()` (R9, R206). Safe, log 12. -/
opaque Config.undefPtr (k : Nat) : Ptr

/-- The byte the platform supplies when a device address is read, as the k-th draw (R41, R346, R349). Safe, log 10. -/
opaque Config.deviceByte (addr k : Nat) : Byte

end Sys2Proof
end

