-- ==== Sys2Proof/Machine/State.lean ====
section
/-! DEFINITION. The machine's state, the reasons a step can stop, and the state right after reset. -/

namespace Sys2Proof.Machine

/-- Memory: the bytes that differ from what an unlisted address reads as, addresses strictly rising (R40; log 3). -/
abbrev Memory := List Host.Cell

/-- What the platform presents at one instruction boundary (R333, R343, R344, R350): `IRQ_SOURCE` presents at most one
request, maskable with a level 0..6 or non-maskable; the host may reset the processor. Log 15. -/
inductive BoundaryEvent where
  /-- nothing: the next instruction runs -/
  | quiet
  /-- a maskable request of that level (R333) -/
  | maskable (level : Fin 7)
  /-- a non-maskable request (R342) -/
  | nonMaskable
  /-- a reset (R344) -/
  | reset
deriving DecidableEq, Repr

/-- The whole state. The first twelve fields are the spec's own state (10_state.md); `platform` holds the parameters of
R8; the last four are the model's own (logs 8, 10, 12, 15). -/
structure State where
  /-- data registers (R10) -/
  d0 : Ptr
  d1 : Ptr
  d2 : Ptr
  d3 : Ptr
  /-- address registers (R12); a3 is the stack pointer (R13) -/
  a0 : Ptr
  a1 : Ptr
  a2 : Ptr
  a3 : Ptr
  /-- program counter: the address of the first byte of the instruction about to execute (R14) -/
  pc : Ptr
  /-- multiply/divide register (R17) -/
  mdr : Word
  /-- processor status word (R18), all 16 bits as storage (R23) -/
  psw : Word
  /-- memory (R40) -/
  mem : Memory
  /-- MEM_MAP, CODE_REGION, RESET_PC, IRQ_ENTRY, PSW_IM_POS, PSW_S_POS, IRQ_ACCEPT (R8); no step changes it -/
  platform : Platform
  /-- model's own: what the platform presents at the coming instruction boundaries, the next one first; when the list is
  empty it presents nothing more (log 15) -/
  events : List BoundaryEvent
  /-- model's own: the addresses stored to since the last taken control transfer (R52; log 8) -/
  written : List Nat
  /-- model's own: how many free values have been drawn (`undef_N()`, R9; log 12) -/
  draws : Nat
  /-- model's own: the bytes written to device addresses, the latest first (R41, R346; log 10) -/
  devOut : List Host.Cell
deriving DecidableEq, Repr

/-- The reasons a step stops at a memory access. In each the step changes nothing (R331). All are safe: the spec says the
model must stop there, because the manual does not say what the hardware does. -/
inductive Fault where
  /-- `Refuse(MisalignedAccess, addr)`: a 16-bit or 24-bit access, explicit or on the stack, at an odd address
  (R45, R331, D3). Raised by State.checkAccess. Safe, log 5. -/
  | misalignedAccess (addr : Nat)
  /-- `Refuse(UnmappedAccess, addr)`: a fetch or data access at an address MEM_MAP does not map (R41, R331, D11). Raised
  by State.checkAccess and fetch. Safe, log 9. -/
  | unmappedAccess (addr : Nat)
  /-- `Refuse(CodeWrite, addr)`: a store to a byte of CODE_REGION (R52, R331, D8). Raised by State.checkStore. Safe,
  log 7. -/
  | codeWrite (addr : Nat)
  /-- a store to a ROM address whose MEM_MAP entry says that the store stops (R41: "a store to ROM is
  platform-defined"). Raised by State.checkStore. Safe, log 11. -/
  | romStore (addr : Nat)
deriving DecidableEq, Repr

/-- The reasons a step has no instruction to run. -/
inductive Refusal where
  /-- an instruction the model gives no meaning. No arm of exec answers it: every instruction is modelled. Safe. -/
  | notModelled (mnemonic : String)
  /-- `Refuse(UndefinedInstruction, bytes)`: the bytes at pc are an unassigned code (R80, R331, D4). Raised by fetch.
  Safe, log 6. -/
  | undefinedInstruction (bytes : List Byte)
deriving DecidableEq, Repr

/-- The machine right after reset (R25, R26, R360, R361): PSW is 0 by R25; the registers, which the spec leaves undefined,
hold zero (DESIGN CHOICE, unsafe, log 1); pc is the platform's RESET_PC (log 2); no memory byte is listed (log 3); the
platform is Platform.bare (log 4). -/
def State.reset : State :=
  { d0 := 0, d1 := 0, d2 := 0, d3 := 0
    a0 := 0, a1 := 0, a2 := 0, a3 := 0
    pc := Platform.bare.resetPc
    mdr := 0
    psw := 0
    mem := []
    platform := Platform.bare
    events := []
    written := []
    draws := 0
    devOut := [] }

end Sys2Proof.Machine
end

