-- ==== Sys2Proof/Machine/Ops.lean ====
section
/-! DEFINITION. The operations every meaning is written with: registers, memory, free values, taking an interrupt and
returning from one, reset. -/

namespace Sys2Proof.Machine

/-- What a meaning answers. -/
abbrev Result := Host.Outcome State Fault Refusal

/-! Registers -/

/-- `D[r]` (R10). -/
def State.d (s : State) : DReg → Ptr
  | .d0 => s.d0
  | .d1 => s.d1
  | .d2 => s.d2
  | .d3 => s.d3

/-- `A[r]` (R12). -/
def State.a (s : State) : AReg → Ptr
  | .a0 => s.a0
  | .a1 => s.a1
  | .a2 => s.a2
  | .a3 => s.a3

/-- `D[r] <- v` (R9). -/
def State.setD (s : State) (r : DReg) (v : Ptr) : State :=
  match r with
  | .d0 => { s with d0 := v }
  | .d1 => { s with d1 := v }
  | .d2 => { s with d2 := v }
  | .d3 => { s with d3 := v }

/-- `A[r] <- v` (R9). -/
def State.setA (s : State) (r : AReg) (v : Ptr) : State :=
  match r with
  | .a0 => { s with a0 := v }
  | .a1 => { s with a1 := v }
  | .a2 => { s with a2 := v }
  | .a3 => { s with a3 := v }

/-- `MDR <- v` (R17). -/
def State.setMdr (s : State) (v : Word) : State := { s with mdr := v }

/-- `PSW <- v` (R24). -/
def State.setPsw (s : State) (v : Word) : State := { s with psw := v }

/-- The address of the instruction after one of `len` bytes at pc (R15, R16). -/
def State.nextPc (s : State) (len : Nat) : Ptr := s.pc + BitVec.ofNat 24 len

/-- Go on to the next instruction: `pc <- (pc + len) mod 2^24` (R15). -/
def State.advance (s : State) (len : Nat) : State := { s with pc := s.nextPc len }

/-- A taken control transfer: `pc <- target`. Stores made before it no longer count as prefetched (R52; log 8). -/
def State.jump (s : State) (target : Ptr) : State := { s with pc := target, written := [] }

/-! Free values (R9; log 12) -/

/-- The j-th free bit of this instruction, `undef_1()`. -/
def State.freeBit (s : State) (j : Nat) : Bool := Config.undefBit (s.draws + j)

/-- The j-th free word of this instruction, `undef_16()`. -/
def State.freeWord (s : State) (j : Nat) : Word := Config.undefWord (s.draws + j)

/-- The j-th free 24-bit value of this instruction, `undef_24()`. -/
def State.freePtr (s : State) (j : Nat) : Ptr := Config.undefPtr (s.draws + j)

/-- Count `n` draws, so that the next free value is a fresh one. -/
def State.consume (s : State) (n : Nat) : State := { s with draws := s.draws + n }

/-! Memory as data -/

/-- What an address that memory does not list reads as. DESIGN CHOICE, unsafe, log 3. -/
def emptyByte : Byte := 0

/-- The byte memory holds at an address. -/
def Memory.read : Memory → Nat → Byte
  | [], _ => emptyByte
  | (k, b) :: m, a => if a = k then b else Memory.read m a

/-- An entry for the byte, unless it is what an unlisted address reads as. -/
def Memory.entry (a : Nat) (b : Byte) (m : Memory) : Memory := if b = emptyByte then m else (a, b) :: m

/-- Memory with one byte replaced, in canonical form. -/
def Memory.write : Memory → Nat → Byte → Memory
  | [], a, b => Memory.entry a b []
  | (k, c) :: m, a, b =>
    if a < k then Memory.entry a b ((k, c) :: m)
    else if a = k then Memory.entry a b m
    else (k, c) :: Memory.write m a b

/-- The canonical form from address `lo` on: addresses rise strictly and lie in the 2^24 bytes (R40), and no entry equals
what an unlisted address reads as. -/
def Memory.wfFrom : Nat → Memory → Bool
  | _, [] => true
  | lo, (k, b) :: m => decide (lo ≤ k) && decide (k < 2 ^ 24) && decide (b ≠ emptyByte) && Memory.wfFrom (k + 1) m

/-- The canonical form of a memory. -/
def Memory.wf (m : Memory) : Bool := Memory.wfFrom 0 m

/-- The byte memory holds at an address. -/
def State.byteAt (s : State) (a : Nat) : Byte := Memory.read s.mem a

/-! The memory map -/

/-- What MEM_MAP says of an address (R41). -/
def memKindOf (map : MemMap) (a : Nat) : MemKind :=
  match map.regions.find? (fun r => decide (r.base ≤ a) && decide (a < r.base + r.size)) with
  | some r => r.kind
  | none => map.other

/-- The kind of an address in the state's platform (R41). -/
def State.kindAt (s : State) (a : Nat) : MemKind := memKindOf s.platform.memMap a

/-- Is the address in CODE_REGION (R52)? -/
def State.isCode (s : State) (a : Nat) : Bool :=
  s.platform.codeRegion.any fun r => decide (r.base ≤ a) && decide (a < r.base + r.size)

/-- The byte addresses of an `n`-byte access at `ea`: ea, ea+1, .., each mod 2^24 (R44, R48). -/
def bytesFrom (ea : Ptr) (n : Nat) : List Nat := (List.range n).map fun j => (ea + BitVec.ofNat 24 j).toNat

/-- Why an `n`-byte access at `ea` must stop, if it must: odd (R45), then unmapped (R41), in the order of R331. -/
def State.checkAccess (s : State) (ea : Ptr) (n : Nat) : Option Fault :=
  if decide (n ≠ 1) && ea.getLsbD 0 then some (.misalignedAccess ea.toNat)
  else
    match (bytesFrom ea n).find? (fun a => decide (s.kindAt a = .unmapped)) with
    | some a => some (.unmappedAccess a)
    | none => none

/-- Why a store must stop, if it must: as any access, then CODE_REGION (R52), then a ROM whose stores stop (R41). -/
def State.checkStore (s : State) (ea : Ptr) (n : Nat) : Option Fault :=
  match s.checkAccess ea n with
  | some f => some f
  | none =>
    match (bytesFrom ea n).find? (fun a => s.isCode a) with
    | some a => some (.codeWrite a)
    | none =>
      match (bytesFrom ea n).find? (fun a => decide (s.kindAt a = .rom .stops)) with
      | some a => some (.romStore a)
      | none => none

/-! Loads -/

/-- The byte an access reads at an address, the j-th of the access: what the platform supplies at a device address (R41;
log 10), the byte of memory elsewhere. -/
def State.readByte (s : State) (j a : Nat) : Byte :=
  if s.kindAt a = .device then Config.deviceByte a (s.draws + j) else Memory.read s.mem a

/-- `MemRead(ea, 1)` (R9). -/
def State.peek8 (s : State) (ea : Ptr) : Byte := s.readByte 0 ea.toNat

/-- `MemRead(ea, 2)`, little-endian (R43). -/
def State.peek16 (s : State) (ea : Ptr) : Word := s.readByte 1 (ea + 1).toNat ++ s.readByte 0 ea.toNat

/-- `MemRead(ea, 3)`, little-endian (R43). -/
def State.peek24 (s : State) (ea : Ptr) : Ptr :=
  s.readByte 2 (ea + 2).toNat ++ s.readByte 1 (ea + 1).toNat ++ s.readByte 0 ea.toNat

/-- The state after an `n`-byte read at `ea`: a read that touches a device has drawn `n` bytes (log 10). -/
def State.afterRead (s : State) (ea : Ptr) (n : Nat) : State :=
  if (bytesFrom ea n).any (fun a => decide (s.kindAt a = .device)) then s.consume n else s

/-- Read a byte and go on with it, or stop. -/
def load8 (ea : Ptr) (s : State) (k : Byte → State → Result) : Result :=
  match s.checkAccess ea 1 with
  | some f => .fault f
  | none => k (s.peek8 ea) (s.afterRead ea 1)

/-- Read a word and go on with it, or stop. -/
def load16 (ea : Ptr) (s : State) (k : Word → State → Result) : Result :=
  match s.checkAccess ea 2 with
  | some f => .fault f
  | none => k (s.peek16 ea) (s.afterRead ea 2)

/-- Read a 24-bit value and go on with it, or stop. Exactly three bytes are read (R44; log 21). -/
def load24 (ea : Ptr) (s : State) (k : Ptr → State → Result) : Result :=
  match s.checkAccess ea 3 with
  | some f => .fault f
  | none => k (s.peek24 ea) (s.afterRead ea 3)

/-! Stores -/

/-- Store one byte: into memory, out to a device, or nowhere (a ROM that ignores stores, R41; log 11). -/
def State.pokeByte (s : State) (a : Nat) (b : Byte) : State :=
  match s.kindAt a with
  | .ram => { s with mem := Memory.write s.mem a b, written := a :: s.written }
  | .device => { s with devOut := (a, b) :: s.devOut }
  | .rom _ => s
  | .unmapped => s

/-- Store bytes at ea, ea+1, .., each address mod 2^24 (R43, R48), the lowest address first. R51 gives the order of an
instruction's accesses and not how one 16-bit or 24-bit access reaches a device: that each device byte goes out as a byte
write of its own, lowest address first, is the model's choice. DESIGN CHOICE, unsafe, log 33. -/
def State.pokeBytes (s : State) (ea : Ptr) : List Byte → State
  | [] => s
  | b :: bs => (s.pokeByte ea.toNat b).pokeBytes (ea + 1) bs

/-- `MemWrite`: every byte of the access is checked before the first is stored, so a stop changes nothing (R331). -/
def store (ea : Ptr) (bytes : List Byte) (s : State) (k : State → Result) : Result :=
  match s.checkStore ea bytes.length with
  | some f => .fault f
  | none => k (s.pokeBytes ea bytes)

/-! The PSW as a program reads it -/

/-- The value a read of PSW gives: bits 15 and 14 are free values, the first draw is bit 14 (R23; log 13). -/
def State.pswRead (s : State) : Word :=
  BitVec.ofBool (s.freeBit 1) ++ BitVec.ofBool (s.freeBit 0) ++ s.psw.extractLsb' 0 14

/-! Interrupts (60_exceptions.md) -/

/-- Does the platform's IRQ_ACCEPT admit a maskable request of that level, IE apart (R8, R333; log 16)? It reads the stored
PSW, bits 15 and 14 included where a row's mask or PSW_IM_POS covers them: R23 lists the reads that give free values there
and acceptance is not among them. DESIGN CHOICE, unsafe for such a platform, log 16. -/
def admits (pl : Platform) (p : Word) (level : Fin 7) : Bool :=
  match pl.irqAccept with
  | .belowMask => decide (level.val < pswIM pl.pswImPos p)
  | .rows table => table.any fun r => decide (r.level = level) && decide (p &&& r.mask = r.value &&& r.mask)

/-- A maskable request is accepted when IE is 1 (R21) and IRQ_ACCEPT admits it (R333). -/
def acceptsMaskable (pl : Platform) (p : Word) (level : Fin 7) : Bool := pswIE p && admits pl p level

/-- IRQ_ENTRY(level, nmi = false) (R336). -/
def irqEntryOf (e : IrqEntry) (level : Fin 7) : Ptr :=
  match level.val with
  | 0 => e.level0
  | 1 => e.level1
  | 2 => e.level2
  | 3 => e.level3
  | 4 => e.level4
  | 5 => e.level5
  | _ => e.level6

/-- Interrupt entry (R336): push PSW at A3-6 and the resume address at A3-4 (three bytes; the byte at A3-1 is not
written), take 6 from A3, clear IE, change IM as the request says, go to the entry address. The rule is the spec's
decision, inferred from RTI and in part PRESUMED. Unsafe, log 17. -/
def enterInterrupt (setMask : Word → Word) (entry : Ptr) (s : State) : Result :=
  store (s.a3 - 6) (le16 s.pswRead) (s.consume 2) fun t =>
    store (s.a3 - 6 + 2) (le24 s.pc) t fun u =>
      .next (((u.setA .a3 (s.a3 - 6)).setPsw (setMask (pswClearIE s.psw))).jump entry)

/-- Entry for an accepted maskable request: `IM <- level` (R336). -/
def enterMaskable (level : Fin 7) (s : State) : Result :=
  enterInterrupt (fun p => pswSetIM s.platform.pswImPos p level.val) (irqEntryOf s.platform.irqEntry level) s

/-- Entry for a non-maskable request, always accepted; IM stays (R336, R342). -/
def enterNonMaskable (s : State) : Result :=
  enterInterrupt (fun p => p) s.platform.irqEntry.nmi s

/-- Return from interrupt (R312, R337): PSW from the word at A3, pc from the three bytes at A3+2, A3 + 6. Both reads come
before any change. -/
def returnFromInterrupt (s : State) : Result :=
  load16 s.a3 s fun p t =>
    load24 (s.a3 + 2) t fun target u =>
      .next (((u.setPsw p).setA .a3 (s.a3 + 6)).jump target)

/-- Reset as an event (R344, R360): PSW is 0, pc is RESET_PC, every other register is a free value; nothing is saved.
Memory and what the devices were sent stay as they are (DESIGN CHOICE, unsafe, log 18). -/
def resetProcessor (s : State) : State :=
  { s with
    d0 := s.freePtr 0, d1 := s.freePtr 1, d2 := s.freePtr 2, d3 := s.freePtr 3
    a0 := s.freePtr 4, a1 := s.freePtr 5, a2 := s.freePtr 6, a3 := s.freePtr 7
    mdr := s.freeWord 8
    psw := 0
    pc := s.platform.resetPc
    written := []
    draws := s.draws + 9 }

end Sys2Proof.Machine
end

