-- ==== Sys2Proof/Machine/Operands.lean ====
section
/-! DEFINITION. The operand forms: effective addresses (R48), widening (R63), and the shapes of meaning that several
instructions share. -/

namespace Sys2Proof.Machine

/-! Widening (R9, R63) -/

/-- `sext_24` of a byte. -/
def sextByte (v : Byte) : Ptr := v.signExtend 24
/-- `zext_24` of a byte. -/
def zextByte (v : Byte) : Ptr := v.zeroExtend 24
/-- `sext_24` of a word. -/
def sextWord (v : Word) : Ptr := v.signExtend 24
/-- `zext_24` of a word. -/
def zextWord (v : Word) : Ptr := v.zeroExtend 24
/-- `zext_16` of a byte. -/
def zextByte16 (v : Byte) : Word := v.zeroExtend 16
/-- Bits 7..0 of a register. -/
def low8 (v : Ptr) : Byte := v.extractLsb' 0 8
/-- Bits 15..0 of a register. -/
def low16 (v : Ptr) : Word := v.extractLsb' 0 16
/-- Bits 23..16 of a register. -/
def high8 (v : Ptr) : Byte := v.extractLsb' 16 8

/-! Effective addresses, modulo 2^24 (R48; log 20) -/

/-- (An) -/
def State.eaInd (s : State) (n : AReg) : Ptr := s.a n
/-- (d8,An) -/
def State.eaD8 (s : State) (d : Byte) (n : AReg) : Ptr := s.a n + sextByte d
/-- (d16,An) -/
def State.eaD16 (s : State) (d : Word) (n : AReg) : Ptr := s.a n + sextWord d
/-- (d24,An) -/
def State.eaD24 (s : State) (d : Ptr) (n : AReg) : Ptr := s.a n + d
/-- (Di,An): all 24 bits of Di -/
def State.eaIdx (s : State) (x : DReg) (n : AReg) : Ptr := s.a n + s.d x
/-- (abs16) -/
def eaAbs16 (addr : Word) : Ptr := zextWord addr
/-- (abs24) -/
def eaAbs24 (addr : Ptr) : Ptr := addr

/-! Moves -/

/-- Put a value in a data register and go on. -/
def moveD (r : DReg) (v : Ptr) (len : Nat) (s : State) : Result := .next ((s.setD r v).advance len)

/-- Put a value in an address register and go on. -/
def moveA (r : AReg) (v : Ptr) (len : Nat) (s : State) : Result := .next ((s.setA r v).advance len)

/-- A 16-bit load, sign-extended (R11, R100). -/
def loadWordToD (ea : Ptr) (r : DReg) (len : Nat) (s : State) : Result :=
  load16 ea s fun w t => moveD r (sextWord w) len t

/-- A 24-bit load into a data register (R140). -/
def loadPtrToD (ea : Ptr) (r : DReg) (len : Nat) (s : State) : Result :=
  load24 ea s fun v t => moveD r v len t

/-- A 24-bit load into an address register (R100). -/
def loadPtrToA (ea : Ptr) (r : AReg) (len : Nat) (s : State) : Result :=
  load24 ea s fun v t => moveA r v len t

/-- A byte load, sign-extended (R148). -/
def loadSignedByteToD (ea : Ptr) (r : DReg) (len : Nat) (s : State) : Result :=
  load8 ea s fun b t => moveD r (sextByte b) len t

/-- A byte load, zero-extended (R148). -/
def loadZeroByteToD (ea : Ptr) (r : DReg) (len : Nat) (s : State) : Result :=
  load8 ea s fun b t => moveD r (zextByte b) len t

/-- A store of some bytes, and on to the next instruction. -/
def storeBytes (ea : Ptr) (bytes : List Byte) (len : Nat) (s : State) : Result :=
  store ea bytes s fun t => .next (t.advance len)

/-- A 16-bit store of a register's low 16 bits (R100). -/
def storeWord (ea v : Ptr) (len : Nat) (s : State) : Result := storeBytes ea (le16 (low16 v)) len s

/-- A 24-bit store: three bytes, the byte at ea+3 stays (R44; log 21). -/
def storePtr (ea v : Ptr) (len : Nat) (s : State) : Result := storeBytes ea (le24 v) len s

/-- A byte store of a register's low 8 bits (R148). -/
def storeByte (ea v : Ptr) (len : Nat) (s : State) : Result := storeBytes ea (le8 (low8 v)) len s

/-! Arithmetic -/

/-- Set all eight flags. -/
def State.setFlags (s : State) (f : ResultFlags) : State := s.setPsw (pswSetFlags s.psw f)

/-- Set VF, CF, NF and ZF. -/
def State.setLowFlags (s : State) (vf cf nf zf : Bool) : State := s.setPsw (pswSetLowFlags s.psw vf cf nf zf)

/-- `D[r] <- AddFlags(D[r], b, 0)` (R180). -/
def addToD (r : DReg) (b : Ptr) (len : Nat) (s : State) : Result :=
  moveD r (addResult (s.d r) b false) len (s.setFlags (addFlags (s.d r) b false))

/-- `A[r] <- AddFlags(A[r], b, 0)` (R180). -/
def addToA (r : AReg) (b : Ptr) (len : Nat) (s : State) : Result :=
  moveA r (addResult (s.a r) b false) len (s.setFlags (addFlags (s.a r) b false))

/-- `D[r] <- SubFlags(D[r], b, 0)` (R181). -/
def subFromD (r : DReg) (b : Ptr) (len : Nat) (s : State) : Result :=
  moveD r (subResult (s.d r) b false) len (s.setFlags (subFlags (s.d r) b false))

/-- `A[r] <- SubFlags(A[r], b, 0)` (R181). -/
def subFromA (r : AReg) (b : Ptr) (len : Nat) (s : State) : Result :=
  moveA r (subResult (s.a r) b false) len (s.setFlags (subFlags (s.a r) b false))

/-- `_ <- SubFlags(a, b, 0)`: the flags only (R181, CMP). -/
def compare (a b : Ptr) (len : Nat) (s : State) : Result :=
  .next ((s.setFlags (subFlags a b false)).advance len)

/-- What MUL and MULU do with the 32-bit product (R204, R205): MDR its upper 16 bits, the register its low 24, VF 0, NF
bit 31, ZF of all 32 bits; VX, CX, NX, ZX and CF are free values (log 12). -/
def finishProduct (p : BitVec 32) (r : DReg) (len : Nat) (s : State) : Result :=
  let f : ResultFlags :=
    { vx := s.freeBit 0, cx := s.freeBit 1, nx := s.freeBit 2, zx := s.freeBit 3
      vf := false, cf := s.freeBit 4, nf := p.getLsbD 31, zf := decide (p = 0) }
  moveD r (p.extractLsb' 0 24) len (((s.setFlags f).setMdr (p.extractLsb' 16 16)).consume 5)

/-- The 32-bit product of two words read as signed numbers (R204). -/
def signedProduct (a b : Word) : BitVec 32 := BitVec.ofInt 32 (a.toInt * b.toInt)

/-- The 32-bit product of two words read as unsigned numbers (R205). -/
def unsignedProduct (a b : Word) : BitVec 32 := BitVec.ofNat 32 (a.toNat * b.toNat)

/-- DIVU's dividend: MDR above the low 16 bits of Dm (R206). -/
def dividend (mdr : Word) (v : Ptr) : Nat := mdr.toNat * 2 ^ 16 + (low16 v).toNat

/-- When DIVU overflows: the divisor is 0 or the quotient needs more than 16 bits (R206, D18; log 24). -/
def divOverflows (dvd : Nat) (divisor : Word) : Bool :=
  decide (divisor = 0) || decide (0xFFFF < dvd / divisor.toNat)

/-- DIVU without overflow (R206): quotient, remainder, VF 0, NX 0, ZX and ZF of the quotient, NF its bit 15; VX, CX and
CF are free values (log 12). -/
def divideFits (dvd : Nat) (divisor : Word) (r : DReg) (len : Nat) (s : State) : Result :=
  let q : Word := BitVec.ofNat 16 (dvd / divisor.toNat)
  let rem : Word := BitVec.ofNat 16 (dvd % divisor.toNat)
  let f : ResultFlags :=
    { vx := s.freeBit 0, cx := s.freeBit 1, nx := false, zx := decide (q = 0)
      vf := false, cf := s.freeBit 2, nf := q.getLsbD 15, zf := decide (q = 0) }
  moveD r (zextWord q) len (((s.setFlags f).setMdr rem).consume 3)

/-- DIVU with overflow (R206): VF is 1; Dm, MDR and the other seven flags are free values (log 12). -/
def divideOverflow (r : DReg) (len : Nat) (s : State) : Result :=
  let f : ResultFlags :=
    { vx := s.freeBit 0, cx := s.freeBit 1, nx := s.freeBit 2, zx := s.freeBit 3
      vf := true, cf := s.freeBit 4, nf := s.freeBit 5, zf := s.freeBit 6 }
  moveD r (s.freePtr 7) len (((s.setFlags f).setMdr (s.freeWord 8)).consume 9)

/-! Logic, shifts and bits -/

/-- `Logic16` (R230): the low 16 bits of the register are replaced, bits 23..16 stay, VF is 0, NF is bit 15, ZF the zero
test; CF is the caller's. -/
def logic16 (r : DReg) (w : Word) (cf : Bool) (len : Nat) (s : State) : Result :=
  moveD r (high8 (s.d r) ++ w) len (s.setLowFlags false cf (w.getLsbD 15) (decide (w = 0)))

/-- AND and OR on the PSW: its old value is read with the free bits 15 and 14 (R23, R234, R238). -/
def updatePsw (f : Word → Word) (len : Nat) (s : State) : Result :=
  .next (((s.setPsw (f s.pswRead)).consume 2).advance len)

/-- BTST: VF and CF are 0, NF bit 15 and ZF the zero test of the masked low 16 bits (R260, R261). -/
def testBits (t : Word) (len : Nat) (s : State) : Result :=
  .next ((s.setLowFlags false false (t.getLsbD 15) (decide (t = 0))).advance len)

/-- BSET and BCLR (R262, R263): read the byte, test it against the mask, store `f` of it; one indivisible step (R264). -/
def modifyByte (f : Byte → Byte) (mask : Byte) (ea : Ptr) (len : Nat) (s : State) : Result :=
  load8 ea s fun b t =>
    store ea (le8 (f b)) t fun u =>
      .next ((u.setLowFlags false false false (decide (b &&& mask = 0))).advance len)

/-! Control flow -/

/-- A conditional branch: to the next instruction's address plus the displacement, or on (R271). -/
def branchIf (taken : Bool) (d : Ptr) (len : Nat) (s : State) : Result :=
  .next (if taken then s.jump (s.nextPc len + d) else s.advance len)

/-- A call: A3 - 4, the return address in the three bytes at the new A3, then the jump (R305, R308). -/
def callSubroutine (target : Ptr) (len : Nat) (s : State) : Result :=
  store (s.a3 - 4) (le24 (s.nextPc len)) s fun t => .next ((t.setA .a3 (s.a3 - 4)).jump target)

/-- Two instructions in sequence, for the assembler forms that stand for two (R83; log 25). -/
def andThen (first : Result) (second : State → Result) : Result :=
  match first with
  | .next s => second s
  | .fault f => .fault f
  | .refused r => .refused r

end Sys2Proof.Machine
end

