-- ==== Sys2Proof/Machine/Arith.lean ====
section
/-! DEFINITION. Addition, subtraction, multiplication, division, comparison (spec/42_arithmetic.md). -/

namespace Sys2Proof.Machine

/-- ADD Dn,Dm (R183). -/
def execAddDnDm (n m : DReg) (s : State) : Result := addToD m (s.d n) 1 s

/-- ADD Dm,An (R184). -/
def execAddDmAn (m : DReg) (n : AReg) (s : State) : Result := addToA n (s.d m) 2 s

/-- ADD An,Dm (R185). -/
def execAddAnDm (n : AReg) (m : DReg) (s : State) : Result := addToD m (s.a n) 2 s

/-- ADD An,Am (R186). -/
def execAddAnAm (n m : AReg) (s : State) : Result := addToA m (s.a n) 2 s

/-- ADD imm8,Dn (R187). -/
def execAddImm8Dn (imm : Byte) (n : DReg) (s : State) : Result := addToD n (sextByte imm) 2 s

/-- ADD imm16,Dn (R188). -/
def execAddImm16Dn (imm : Word) (n : DReg) (s : State) : Result := addToD n (sextWord imm) 4 s

/-- ADD imm24,Dn (R189). -/
def execAddImm24Dn (imm : Ptr) (n : DReg) (s : State) : Result := addToD n imm 5 s

/-- ADD imm8,An (R190). -/
def execAddImm8An (imm : Byte) (n : AReg) (s : State) : Result := addToA n (sextByte imm) 2 s

/-- ADD imm16,An (R191). -/
def execAddImm16An (imm : Word) (n : AReg) (s : State) : Result := addToA n (sextWord imm) 4 s

/-- ADD imm24,An (R192). -/
def execAddImm24An (imm : Ptr) (n : AReg) (s : State) : Result := addToA n imm 5 s

/-- ADDC Dn,Dm (R193). The carry-in is CF; ZF accumulates. -/
def execAddcDnDm (n m : DReg) (s : State) : Result :=
  moveD m (addResult (s.d m) (s.d n) (pswCF s.psw)) 2
    (s.setFlags ((addFlags (s.d m) (s.d n) (pswCF s.psw)).accumulateZF (pswZF s.psw)))

/-- ADDNF imm8,An (R194). No flag changes. -/
def execAddnfImm8An (imm : Byte) (n : AReg) (s : State) : Result := moveA n (s.a n + sextByte imm) 3 s

/-- SUB Dn,Dm (R195). -/
def execSubDnDm (n m : DReg) (s : State) : Result := subFromD m (s.d n) 1 s

/-- SUB Dm,An (R196). -/
def execSubDmAn (m : DReg) (n : AReg) (s : State) : Result := subFromA n (s.d m) 2 s

/-- SUB An,Dm (R197). -/
def execSubAnDm (n : AReg) (m : DReg) (s : State) : Result := subFromD m (s.a n) 2 s

/-- SUB An,Am (R198). -/
def execSubAnAm (n m : AReg) (s : State) : Result := subFromA m (s.a n) 2 s

/-- SUB imm16,Dn (R199). -/
def execSubImm16Dn (imm : Word) (n : DReg) (s : State) : Result := subFromD n (sextWord imm) 4 s

/-- SUB imm24,Dn (R200). -/
def execSubImm24Dn (imm : Ptr) (n : DReg) (s : State) : Result := subFromD n imm 5 s

/-- SUB imm16,An (R201). -/
def execSubImm16An (imm : Word) (n : AReg) (s : State) : Result := subFromA n (sextWord imm) 4 s

/-- SUB imm24,An (R202). -/
def execSubImm24An (imm : Ptr) (n : AReg) (s : State) : Result := subFromA n imm 5 s

/-- SUBC Dn,Dm (R203). The borrow-in is CF; ZF accumulates. -/
def execSubcDnDm (n m : DReg) (s : State) : Result :=
  moveD m (subResult (s.d m) (s.d n) (pswCF s.psw)) 2
    (s.setFlags ((subFlags (s.d m) (s.d n) (pswCF s.psw)).accumulateZF (pswZF s.psw)))

/-- MUL Dn,Dm (R204). -/
def execMulDnDm (n m : DReg) (s : State) : Result :=
  finishProduct (signedProduct (low16 (s.d m)) (low16 (s.d n))) m 2 s

/-- MULU Dn,Dm (R205). -/
def execMuluDnDm (n m : DReg) (s : State) : Result :=
  finishProduct (unsignedProduct (low16 (s.d m)) (low16 (s.d n))) m 2 s

/-- DIVU Dn,Dm (R206). MDR is the upper half of the dividend; nothing is raised. -/
def execDivuDnDm (n m : DReg) (s : State) : Result :=
  if divOverflows (dividend s.mdr (s.d m)) (low16 (s.d n)) then divideOverflow m 2 s
  else divideFits (dividend s.mdr (s.d m)) (low16 (s.d n)) m 2 s

/-- CMP Dn,Dm (R207). -/
def execCmpDnDm (n m : DReg) (s : State) : Result := compare (s.d m) (s.d n) 2 s

/-- CMP Dm,An (R208). -/
def execCmpDmAn (m : DReg) (n : AReg) (s : State) : Result := compare (s.a n) (s.d m) 2 s

/-- CMP An,Dm (R209). -/
def execCmpAnDm (n : AReg) (m : DReg) (s : State) : Result := compare (s.d m) (s.a n) 2 s

/-- CMP An,Am (R210). -/
def execCmpAnAm (n m : AReg) (s : State) : Result := compare (s.a m) (s.a n) 2 s

/-- CMP imm8,Dn (R211). -/
def execCmpImm8Dn (imm : Byte) (n : DReg) (s : State) : Result := compare (s.d n) (sextByte imm) 2 s

/-- CMP imm16,Dn (R212). -/
def execCmpImm16Dn (imm : Word) (n : DReg) (s : State) : Result := compare (s.d n) (sextWord imm) 4 s

/-- CMP imm24,Dn (R213). -/
def execCmpImm24Dn (imm : Ptr) (n : DReg) (s : State) : Result := compare (s.d n) imm 5 s

/-- CMP imm16,An (R214). The one arithmetic immediate that is zero-extended. -/
def execCmpImm16An (imm : Word) (n : AReg) (s : State) : Result := compare (s.a n) (zextWord imm) 3 s

/-- CMP imm24,An (R215). -/
def execCmpImm24An (imm : Ptr) (n : AReg) (s : State) : Result := compare (s.a n) imm 5 s

end Sys2Proof.Machine
end

