-- ==== Sys2Proof/Machine/AssemblerForms.lean ====
section
/-! DEFINITION. The four forms "supported by the assembler" (R83): each has the meaning of its expansion. The decoder never
answers one (R86; log 25). -/

namespace Sys2Proof.Machine

/-- MOV (An),Am (R116). Its expansion is MOV (d8,An),Am with d8 = 0. -/
def execMovIndAm (n m : AReg) (s : State) : Result := loadPtrToA (s.eaD8 0 n) m 2 s

/-- MOV Am,(An) (R129). Its expansion is MOV Am,(d8,An) with d8 = 0. -/
def execMovAmInd (m n : AReg) (s : State) : Result := storePtr (s.eaD8 0 n) (s.a m) 2 s

/-- MOVB (An),Dm (R149). Its expansion is MOVBU (An),Dm then EXTXB Dm; pc advances through both. -/
def execMovbIndDm (n : AReg) (m : DReg) (s : State) : Result :=
  andThen (loadZeroByteToD (s.eaInd n) m 1 s) fun t => moveD m (sextByte (low8 (t.d m))) 1 t

/-- MOVB (abs16),Dn (R154). Its expansion is MOVBU (abs16),Dn then EXTXB Dn; pc advances through both. -/
def execMovbAbs16Dn (addr : Word) (n : DReg) (s : State) : Result :=
  andThen (loadZeroByteToD (eaAbs16 addr) n 3 s) fun t => moveD n (sextByte (low8 (t.d n))) 1 t

end Sys2Proof.Machine
end

