-- ==== Sys2Proof/Machine/Bit.lean ====
section
/-! DEFINITION. BTST, BSET, BCLR (spec/44_bit_manipulation.md). -/

namespace Sys2Proof.Machine

/-- BTST imm8,Dn (R260). The mask is zero-extended, so NF is 0. -/
def execBtstImm8Dn (imm : Byte) (n : DReg) (s : State) : Result := testBits (low16 (s.d n &&& zextByte imm)) 3 s

/-- BTST imm16,Dn (R261). -/
def execBtstImm16Dn (imm : Word) (n : DReg) (s : State) : Result := testBits (low16 (s.d n &&& zextWord imm)) 4 s

/-- BSET Dm,(An) (R262). -/
def execBsetDmInd (m : DReg) (n : AReg) (s : State) : Result :=
  modifyByte (fun b => b ||| low8 (s.d m)) (low8 (s.d m)) (s.eaInd n) 2 s

/-- BCLR Dm,(An) (R263). The byte is ANDed with the inverted mask (conflict C7). -/
def execBclrDmInd (m : DReg) (n : AReg) (s : State) : Result :=
  modifyByte (fun b => b &&& ~~~low8 (s.d m)) (low8 (s.d m)) (s.eaInd n) 2 s

end Sys2Proof.Machine
end

