-- ==== Sys2Proof/Machine/Branch.lean ====
section
/-! DEFINITION. Branches, jumps, calls and returns (spec/45_branch.md). No delay slot (R272); no flag changes but by RTI. -/

namespace Sys2Proof.Machine

/-- BEQ label (R273). -/
def execBeq (d : Byte) (s : State) : Result := branchIf (Cond.eq.holds16 s.psw) (sextByte d) 2 s

/-- BNE label (R274). -/
def execBne (d : Byte) (s : State) : Result := branchIf (Cond.ne.holds16 s.psw) (sextByte d) 2 s

/-- BLT label (R275). -/
def execBlt (d : Byte) (s : State) : Result := branchIf (Cond.lt.holds16 s.psw) (sextByte d) 2 s

/-- BLE label (R276). -/
def execBle (d : Byte) (s : State) : Result := branchIf (Cond.le.holds16 s.psw) (sextByte d) 2 s

/-- BGE label (R277). -/
def execBge (d : Byte) (s : State) : Result := branchIf (Cond.ge.holds16 s.psw) (sextByte d) 2 s

/-- BGT label (R278). -/
def execBgt (d : Byte) (s : State) : Result := branchIf (Cond.gt.holds16 s.psw) (sextByte d) 2 s

/-- BCS label (R279). -/
def execBcs (d : Byte) (s : State) : Result := branchIf (Cond.cs.holds16 s.psw) (sextByte d) 2 s

/-- BLS label (R280). -/
def execBls (d : Byte) (s : State) : Result := branchIf (Cond.ls.holds16 s.psw) (sextByte d) 2 s

/-- BCC label (R281). -/
def execBcc (d : Byte) (s : State) : Result := branchIf (Cond.cc.holds16 s.psw) (sextByte d) 2 s

/-- BHI label (R282). -/
def execBhi (d : Byte) (s : State) : Result := branchIf (Cond.hi.holds16 s.psw) (sextByte d) 2 s

/-- BVC label (R283). -/
def execBvc (d : Byte) (s : State) : Result := branchIf (Cond.vc.holds16 s.psw) (sextByte d) 3 s

/-- BVS label (R284). -/
def execBvs (d : Byte) (s : State) : Result := branchIf (Cond.vs.holds16 s.psw) (sextByte d) 3 s

/-- BNC label (R285). -/
def execBnc (d : Byte) (s : State) : Result := branchIf (Cond.nc.holds16 s.psw) (sextByte d) 3 s

/-- BNS label (R286). -/
def execBns (d : Byte) (s : State) : Result := branchIf (Cond.ns.holds16 s.psw) (sextByte d) 3 s

/-- BRA label (R287). -/
def execBra (d : Byte) (s : State) : Result := branchIf true (sextByte d) 2 s

/-- BEQX label (R288). -/
def execBeqx (d : Byte) (s : State) : Result := branchIf (Cond.eq.holdsX s.psw) (sextByte d) 3 s

/-- BNEX label (R289). -/
def execBnex (d : Byte) (s : State) : Result := branchIf (Cond.ne.holdsX s.psw) (sextByte d) 3 s

/-- BLTX label (R290). -/
def execBltx (d : Byte) (s : State) : Result := branchIf (Cond.lt.holdsX s.psw) (sextByte d) 3 s

/-- BLEX label (R291). -/
def execBlex (d : Byte) (s : State) : Result := branchIf (Cond.le.holdsX s.psw) (sextByte d) 3 s

/-- BGEX label (R292). -/
def execBgex (d : Byte) (s : State) : Result := branchIf (Cond.ge.holdsX s.psw) (sextByte d) 3 s

/-- BGTX label (R293). -/
def execBgtx (d : Byte) (s : State) : Result := branchIf (Cond.gt.holdsX s.psw) (sextByte d) 3 s

/-- BCSX label (R294). -/
def execBcsx (d : Byte) (s : State) : Result := branchIf (Cond.cs.holdsX s.psw) (sextByte d) 3 s

/-- BLSX label (R295). -/
def execBlsx (d : Byte) (s : State) : Result := branchIf (Cond.ls.holdsX s.psw) (sextByte d) 3 s

/-- BCCX label (R296). -/
def execBccx (d : Byte) (s : State) : Result := branchIf (Cond.cc.holdsX s.psw) (sextByte d) 3 s

/-- BHIX label (R297). -/
def execBhix (d : Byte) (s : State) : Result := branchIf (Cond.hi.holdsX s.psw) (sextByte d) 3 s

/-- BVCX label (R298). -/
def execBvcx (d : Byte) (s : State) : Result := branchIf (Cond.vc.holdsX s.psw) (sextByte d) 3 s

/-- BVSX label (R299). -/
def execBvsx (d : Byte) (s : State) : Result := branchIf (Cond.vs.holdsX s.psw) (sextByte d) 3 s

/-- BNCX label (R300). -/
def execBncx (d : Byte) (s : State) : Result := branchIf (Cond.nc.holdsX s.psw) (sextByte d) 3 s

/-- BNSX label (R301). -/
def execBnsx (d : Byte) (s : State) : Result := branchIf (Cond.ns.holdsX s.psw) (sextByte d) 3 s

/-- JMP label16 (R302). -/
def execJmpLabel16 (d : Word) (s : State) : Result := .next (s.jump (s.nextPc 3 + sextWord d))

/-- JMP label24 (R303). -/
def execJmpLabel24 (d : Ptr) (s : State) : Result := .next (s.jump (s.nextPc 5 + d))

/-- JMP (An) (R304). -/
def execJmpInd (n : AReg) (s : State) : Result := .next (s.jump (s.a n))

/-- JSR label16 (R305). -/
def execJsrLabel16 (d : Word) (s : State) : Result := callSubroutine (s.nextPc 3 + sextWord d) 3 s

/-- JSR label24 (R306). -/
def execJsrLabel24 (d : Ptr) (s : State) : Result := callSubroutine (s.nextPc 5 + d) 5 s

/-- JSR (An) (R307). JSR (A3) goes to the decremented A3 (D27; DESIGN CHOICE of the spec, unsafe, log 22). -/
def execJsrInd (n : AReg) (s : State) : Result := callSubroutine ((s.setA .a3 (s.a3 - 4)).a n) 2 s

/-- NOP (R309). -/
def execNop (s : State) : Result := .next (s.advance 1)

/-- RTS (R310). -/
def execRts (s : State) : Result := load24 s.a3 s fun target t => .next ((t.setA .a3 (s.a3 + 4)).jump target)

/-- RTI (R312). -/
def execRti (s : State) : Result := returnFromInterrupt s

end Sys2Proof.Machine
end

