-- ==== Sys2Proof/Machine/Logic.lean ====
section
/-! DEFINITION. AND, OR, XOR, NOT, shifts and rotates (spec/43_logical.md): 16-bit operations that keep bits 23..16. -/

namespace Sys2Proof.Machine

/-- AND Dn,Dm (R231). -/
def execAndDnDm (n m : DReg) (s : State) : Result := logic16 m (low16 (s.d m) &&& low16 (s.d n)) false 2 s

/-- AND imm8,Dn (R232). The immediate is zero-extended to 16 bits. -/
def execAndImm8Dn (imm : Byte) (n : DReg) (s : State) : Result :=
  logic16 n (low16 (s.d n) &&& zextByte16 imm) false 3 s

/-- AND imm16,Dn (R233). -/
def execAndImm16Dn (imm : Word) (n : DReg) (s : State) : Result := logic16 n (low16 (s.d n) &&& imm) false 4 s

/-- AND imm16,PSW (R234). -/
def execAndImm16Psw (imm : Word) (s : State) : Result := updatePsw (fun p => p &&& imm) 4 s

/-- OR Dn,Dm (R235). -/
def execOrDnDm (n m : DReg) (s : State) : Result := logic16 m (low16 (s.d m) ||| low16 (s.d n)) false 2 s

/-- OR imm8,Dn (R236). The immediate is zero-extended to 16 bits. -/
def execOrImm8Dn (imm : Byte) (n : DReg) (s : State) : Result :=
  logic16 n (low16 (s.d n) ||| zextByte16 imm) false 3 s

/-- OR imm16,Dn (R237). -/
def execOrImm16Dn (imm : Word) (n : DReg) (s : State) : Result := logic16 n (low16 (s.d n) ||| imm) false 4 s

/-- OR imm16,PSW (R238). -/
def execOrImm16Psw (imm : Word) (s : State) : Result := updatePsw (fun p => p ||| imm) 4 s

/-- XOR Dn,Dm (R239). -/
def execXorDnDm (n m : DReg) (s : State) : Result := logic16 m (low16 (s.d m) ^^^ low16 (s.d n)) false 2 s

/-- XOR imm16,Dn (R240). -/
def execXorImm16Dn (imm : Word) (n : DReg) (s : State) : Result := logic16 n (low16 (s.d n) ^^^ imm) false 4 s

/-- NOT Dn (R241). -/
def execNotDn (n : DReg) (s : State) : Result := logic16 n (low16 (s.d n) ^^^ 0xFFFF) false 2 s

/-- ASR Dn (R242). Bit 15 stays. -/
def execAsrDn (n : DReg) (s : State) : Result := logic16 n ((low16 (s.d n)).sshiftRight 1) ((s.d n).getLsbD 0) 2 s

/-- LSR Dn (R243). A 0 enters bit 15, so NF is 0. -/
def execLsrDn (n : DReg) (s : State) : Result := logic16 n ((low16 (s.d n)) >>> 1) ((s.d n).getLsbD 0) 2 s

/-- ROR Dn (R244). A 17-bit rotation right through CF. -/
def execRorDn (n : DReg) (s : State) : Result :=
  logic16 n (BitVec.ofBool (pswCF s.psw) ++ (low16 (s.d n)).extractLsb' 1 15) ((s.d n).getLsbD 0) 2 s

/-- ROL Dn (R245). A 17-bit rotation left through CF (conflict C4). -/
def execRolDn (n : DReg) (s : State) : Result :=
  logic16 n ((low16 (s.d n)).extractLsb' 0 15 ++ BitVec.ofBool (pswCF s.psw)) ((s.d n).getLsbD 15) 2 s

end Sys2Proof.Machine
end

