-- ==== Sys2Proof/Machine/Move.lean ====
section
/-! DEFINITION. MOV (spec/40_data_move_mov.md). No form changes a flag but MOV Dn,PSW. -/

namespace Sys2Proof.Machine

/-- MOV Dm,An (R101). -/
def execMovDmAn (m : DReg) (n : AReg) (s : State) : Result := moveA n (s.d m) 2 s

/-- MOV An,Dm (R102). -/
def execMovAnDm (n : AReg) (m : DReg) (s : State) : Result := moveD m (s.a n) 2 s

/-- MOV Dn,Dm (R103). -/
def execMovDnDm (n m : DReg) (s : State) : Result := moveD m (s.d n) 1 s

/-- MOV An,Am (R104). -/
def execMovAnAm (n m : AReg) (s : State) : Result := moveA m (s.a n) 2 s

/-- MOV PSW,Dn (R105). Bits 15 and 14 read as free values (R23; log 13). -/
def execMovPswDn (n : DReg) (s : State) : Result := moveD n (zextWord s.pswRead) 2 (s.consume 2)

/-- MOV Dn,PSW (R106). All 16 bits, the interrupt fields too. -/
def execMovDnPsw (n : DReg) (s : State) : Result := .next ((s.setPsw (low16 (s.d n))).advance 2)

/-- MOV MDR,Dn (R107). -/
def execMovMdrDn (n : DReg) (s : State) : Result := moveD n (zextWord s.mdr) 2 s

/-- MOV Dn,MDR (R108). -/
def execMovDnMdr (n : DReg) (s : State) : Result := .next ((s.setMdr (low16 (s.d n))).advance 2)

/-- MOV (An),Dm (R109). -/
def execMovIndDm (n : AReg) (m : DReg) (s : State) : Result := loadWordToD (s.eaInd n) m 1 s

/-- MOV (d8,An),Dm (R110). -/
def execMovD8Dm (d : Byte) (n : AReg) (m : DReg) (s : State) : Result := loadWordToD (s.eaD8 d n) m 2 s

/-- MOV (d16,An),Dm (R111). -/
def execMovD16Dm (d : Word) (n : AReg) (m : DReg) (s : State) : Result := loadWordToD (s.eaD16 d n) m 4 s

/-- MOV (d24,An),Dm (R112). -/
def execMovD24Dm (d : Ptr) (n : AReg) (m : DReg) (s : State) : Result := loadWordToD (s.eaD24 d n) m 5 s

/-- MOV (Di,An),Dm (R113). -/
def execMovIdxDm (x : DReg) (n : AReg) (m : DReg) (s : State) : Result := loadWordToD (s.eaIdx x n) m 2 s

/-- MOV (abs16),Dn (R114). -/
def execMovAbs16Dn (addr : Word) (n : DReg) (s : State) : Result := loadWordToD (eaAbs16 addr) n 3 s

/-- MOV (abs24),Dn (R115). -/
def execMovAbs24Dn (addr : Ptr) (n : DReg) (s : State) : Result := loadWordToD (eaAbs24 addr) n 5 s

/-- MOV (d8,An),Am (R117). -/
def execMovD8Am (d : Byte) (n m : AReg) (s : State) : Result := loadPtrToA (s.eaD8 d n) m 2 s

/-- MOV (d16,An),Am (R118). -/
def execMovD16Am (d : Word) (n m : AReg) (s : State) : Result := loadPtrToA (s.eaD16 d n) m 4 s

/-- MOV (d24,An),Am (R119). -/
def execMovD24Am (d : Ptr) (n m : AReg) (s : State) : Result := loadPtrToA (s.eaD24 d n) m 5 s

/-- MOV (abs16),An (R120). -/
def execMovAbs16An (addr : Word) (n : AReg) (s : State) : Result := loadPtrToA (eaAbs16 addr) n 4 s

/-- MOV (abs24),An (R121). -/
def execMovAbs24An (addr : Ptr) (n : AReg) (s : State) : Result := loadPtrToA (eaAbs24 addr) n 5 s

/-- MOV Dm,(An) (R122). -/
def execMovDmInd (m : DReg) (n : AReg) (s : State) : Result := storeWord (s.eaInd n) (s.d m) 1 s

/-- MOV Dm,(d8,An) (R123). -/
def execMovDmD8 (m : DReg) (d : Byte) (n : AReg) (s : State) : Result := storeWord (s.eaD8 d n) (s.d m) 2 s

/-- MOV Dm,(d16,An) (R124). -/
def execMovDmD16 (m : DReg) (d : Word) (n : AReg) (s : State) : Result := storeWord (s.eaD16 d n) (s.d m) 4 s

/-- MOV Dm,(d24,An) (R125). -/
def execMovDmD24 (m : DReg) (d : Ptr) (n : AReg) (s : State) : Result := storeWord (s.eaD24 d n) (s.d m) 5 s

/-- MOV Dm,(Di,An) (R126). -/
def execMovDmIdx (m x : DReg) (n : AReg) (s : State) : Result := storeWord (s.eaIdx x n) (s.d m) 2 s

/-- MOV Dn,(abs16) (R127). -/
def execMovDnAbs16 (n : DReg) (addr : Word) (s : State) : Result := storeWord (eaAbs16 addr) (s.d n) 3 s

/-- MOV Dn,(abs24) (R128). -/
def execMovDnAbs24 (n : DReg) (addr : Ptr) (s : State) : Result := storeWord (eaAbs24 addr) (s.d n) 5 s

/-- MOV Am,(d8,An) (R130). -/
def execMovAmD8 (m : AReg) (d : Byte) (n : AReg) (s : State) : Result := storePtr (s.eaD8 d n) (s.a m) 2 s

/-- MOV Am,(d16,An) (R131). -/
def execMovAmD16 (m : AReg) (d : Word) (n : AReg) (s : State) : Result := storePtr (s.eaD16 d n) (s.a m) 4 s

/-- MOV Am,(d24,An) (R132). -/
def execMovAmD24 (m : AReg) (d : Ptr) (n : AReg) (s : State) : Result := storePtr (s.eaD24 d n) (s.a m) 5 s

/-- MOV An,(abs16) (R133). -/
def execMovAnAbs16 (n : AReg) (addr : Word) (s : State) : Result := storePtr (eaAbs16 addr) (s.a n) 4 s

/-- MOV An,(abs24) (R134). -/
def execMovAnAbs24 (n : AReg) (addr : Ptr) (s : State) : Result := storePtr (eaAbs24 addr) (s.a n) 5 s

/-- MOV imm8,Dn (R135). -/
def execMovImm8Dn (imm : Byte) (n : DReg) (s : State) : Result := moveD n (sextByte imm) 2 s

/-- MOV imm16,Dn (R136). -/
def execMovImm16Dn (imm : Word) (n : DReg) (s : State) : Result := moveD n (sextWord imm) 3 s

/-- MOV imm24,Dn (R137). -/
def execMovImm24Dn (imm : Ptr) (n : DReg) (s : State) : Result := moveD n imm 5 s

/-- MOV imm16,An (R138). Zero-extended. -/
def execMovImm16An (imm : Word) (n : AReg) (s : State) : Result := moveA n (zextWord imm) 3 s

/-- MOV imm24,An (R139). -/
def execMovImm24An (imm : Ptr) (n : AReg) (s : State) : Result := moveA n imm 5 s

end Sys2Proof.Machine
end

