-- ==== Sys2Proof/Machine/MoveByte.lean ====
section
/-! DEFINITION. MOVX, MOVB, MOVBU and the EXT family (spec/41_data_move_movx_movb_ext.md). No flag changes. -/

namespace Sys2Proof.Machine

/-- MOVX (d8,An),Dm (R141). -/
def execMovxD8Dm (d : Byte) (n : AReg) (m : DReg) (s : State) : Result := loadPtrToD (s.eaD8 d n) m 3 s

/-- MOVX (d16,An),Dm (R142). -/
def execMovxD16Dm (d : Word) (n : AReg) (m : DReg) (s : State) : Result := loadPtrToD (s.eaD16 d n) m 4 s

/-- MOVX (d24,An),Dm (R143). -/
def execMovxD24Dm (d : Ptr) (n : AReg) (m : DReg) (s : State) : Result := loadPtrToD (s.eaD24 d n) m 5 s

/-- MOVX Dm,(d8,An) (R144). -/
def execMovxDmD8 (m : DReg) (d : Byte) (n : AReg) (s : State) : Result := storePtr (s.eaD8 d n) (s.d m) 3 s

/-- MOVX Dm,(d16,An) (R145). -/
def execMovxDmD16 (m : DReg) (d : Word) (n : AReg) (s : State) : Result := storePtr (s.eaD16 d n) (s.d m) 4 s

/-- MOVX Dm,(d24,An) (R146). -/
def execMovxDmD24 (m : DReg) (d : Ptr) (n : AReg) (s : State) : Result := storePtr (s.eaD24 d n) (s.d m) 5 s

/-- MOVB (d8,An),Dm (R150). -/
def execMovbD8Dm (d : Byte) (n : AReg) (m : DReg) (s : State) : Result := loadSignedByteToD (s.eaD8 d n) m 3 s

/-- MOVB (d16,An),Dm (R151). -/
def execMovbD16Dm (d : Word) (n : AReg) (m : DReg) (s : State) : Result := loadSignedByteToD (s.eaD16 d n) m 4 s

/-- MOVB (d24,An),Dm (R152). -/
def execMovbD24Dm (d : Ptr) (n : AReg) (m : DReg) (s : State) : Result := loadSignedByteToD (s.eaD24 d n) m 5 s

/-- MOVB (Di,An),Dm (R153). -/
def execMovbIdxDm (x : DReg) (n : AReg) (m : DReg) (s : State) : Result := loadSignedByteToD (s.eaIdx x n) m 2 s

/-- MOVB (abs24),Dn (R155). -/
def execMovbAbs24Dn (addr : Ptr) (n : DReg) (s : State) : Result := loadSignedByteToD (eaAbs24 addr) n 5 s

/-- MOVB Dm,(An) (R156). Field order as printed twice (D25; log 23). -/
def execMovbDmInd (m : DReg) (n : AReg) (s : State) : Result := storeByte (s.eaInd n) (s.d m) 1 s

/-- MOVB Dm,(d8,An) (R157). -/
def execMovbDmD8 (m : DReg) (d : Byte) (n : AReg) (s : State) : Result := storeByte (s.eaD8 d n) (s.d m) 3 s

/-- MOVB Dm,(d16,An) (R158). -/
def execMovbDmD16 (m : DReg) (d : Word) (n : AReg) (s : State) : Result := storeByte (s.eaD16 d n) (s.d m) 4 s

/-- MOVB Dm,(d24,An) (R159). -/
def execMovbDmD24 (m : DReg) (d : Ptr) (n : AReg) (s : State) : Result := storeByte (s.eaD24 d n) (s.d m) 5 s

/-- MOVB Dm,(Di,An) (R160). -/
def execMovbDmIdx (m x : DReg) (n : AReg) (s : State) : Result := storeByte (s.eaIdx x n) (s.d m) 2 s

/-- MOVB Dn,(abs16) (R161). -/
def execMovbDnAbs16 (n : DReg) (addr : Word) (s : State) : Result := storeByte (eaAbs16 addr) (s.d n) 3 s

/-- MOVB Dn,(abs24) (R162). -/
def execMovbDnAbs24 (n : DReg) (addr : Ptr) (s : State) : Result := storeByte (eaAbs24 addr) (s.d n) 5 s

/-- MOVBU (An),Dm (R163). -/
def execMovbuIndDm (n : AReg) (m : DReg) (s : State) : Result := loadZeroByteToD (s.eaInd n) m 1 s

/-- MOVBU (d8,An),Dm (R164). -/
def execMovbuD8Dm (d : Byte) (n : AReg) (m : DReg) (s : State) : Result := loadZeroByteToD (s.eaD8 d n) m 3 s

/-- MOVBU (d16,An),Dm (R165). -/
def execMovbuD16Dm (d : Word) (n : AReg) (m : DReg) (s : State) : Result := loadZeroByteToD (s.eaD16 d n) m 4 s

/-- MOVBU (d24,An),Dm (R166). -/
def execMovbuD24Dm (d : Ptr) (n : AReg) (m : DReg) (s : State) : Result := loadZeroByteToD (s.eaD24 d n) m 5 s

/-- MOVBU (Di,An),Dm (R167). -/
def execMovbuIdxDm (x : DReg) (n : AReg) (m : DReg) (s : State) : Result := loadZeroByteToD (s.eaIdx x n) m 2 s

/-- MOVBU (abs16),Dn (R168). -/
def execMovbuAbs16Dn (addr : Word) (n : DReg) (s : State) : Result := loadZeroByteToD (eaAbs16 addr) n 3 s

/-- MOVBU (abs24),Dn (R169). -/
def execMovbuAbs24Dn (addr : Ptr) (n : DReg) (s : State) : Result := loadZeroByteToD (eaAbs24 addr) n 5 s

/-- EXT Dn (R170). Only MDR changes. -/
def execExtDn (n : DReg) (s : State) : Result :=
  .next ((s.setMdr (if (s.d n).getLsbD 15 then 0xFFFF else 0x0000)).advance 2)

/-- EXTX Dn (R171). -/
def execExtxDn (n : DReg) (s : State) : Result := moveD n (sextWord (low16 (s.d n))) 1 s

/-- EXTXU Dn (R172). -/
def execExtxuDn (n : DReg) (s : State) : Result := moveD n (s.d n &&& 0x00FFFF) 1 s

/-- EXTXB Dn (R173). -/
def execExtxbDn (n : DReg) (s : State) : Result := moveD n (sextByte (low8 (s.d n))) 1 s

/-- EXTXBU Dn (R174). -/
def execExtxbuDn (n : DReg) (s : State) : Result := moveD n (s.d n &&& 0x0000FF) 1 s

end Sys2Proof.Machine
end

