-- ==== Sys2Proof/Machine/Dispatch.lean ====
section
/-! DEFINITION. The instruction dispatch: one arm per constructor of Instr, one meaning each. -/

namespace Sys2Proof.Machine

/-- What one instruction does (the spec's rule for it is cited at its meaning). -/
def exec (i : Instr) (s : State) : Host.Outcome State Fault Refusal :=
  match i with
  | .movDmAn m n => Sys2Proof.Machine.execMovDmAn m n s
  | .movAnDm n m => Sys2Proof.Machine.execMovAnDm n m s
  | .movDnDm n m => Sys2Proof.Machine.execMovDnDm n m s
  | .movAnAm n m => Sys2Proof.Machine.execMovAnAm n m s
  | .movPswDn n => Sys2Proof.Machine.execMovPswDn n s
  | .movDnPsw n => Sys2Proof.Machine.execMovDnPsw n s
  | .movMdrDn n => Sys2Proof.Machine.execMovMdrDn n s
  | .movDnMdr n => Sys2Proof.Machine.execMovDnMdr n s
  | .movIndDm n m => Sys2Proof.Machine.execMovIndDm n m s
  | .movD8Dm d n m => Sys2Proof.Machine.execMovD8Dm d n m s
  | .movD16Dm d n m => Sys2Proof.Machine.execMovD16Dm d n m s
  | .movD24Dm d n m => Sys2Proof.Machine.execMovD24Dm d n m s
  | .movIdxDm x n m => Sys2Proof.Machine.execMovIdxDm x n m s
  | .movAbs16Dn addr n => Sys2Proof.Machine.execMovAbs16Dn addr n s
  | .movAbs24Dn addr n => Sys2Proof.Machine.execMovAbs24Dn addr n s
  | .movD8Am d n m => Sys2Proof.Machine.execMovD8Am d n m s
  | .movD16Am d n m => Sys2Proof.Machine.execMovD16Am d n m s
  | .movD24Am d n m => Sys2Proof.Machine.execMovD24Am d n m s
  | .movAbs16An addr n => Sys2Proof.Machine.execMovAbs16An addr n s
  | .movAbs24An addr n => Sys2Proof.Machine.execMovAbs24An addr n s
  | .movDmInd m n => Sys2Proof.Machine.execMovDmInd m n s
  | .movDmD8 m d n => Sys2Proof.Machine.execMovDmD8 m d n s
  | .movDmD16 m d n => Sys2Proof.Machine.execMovDmD16 m d n s
  | .movDmD24 m d n => Sys2Proof.Machine.execMovDmD24 m d n s
  | .movDmIdx m x n => Sys2Proof.Machine.execMovDmIdx m x n s
  | .movDnAbs16 n addr => Sys2Proof.Machine.execMovDnAbs16 n addr s
  | .movDnAbs24 n addr => Sys2Proof.Machine.execMovDnAbs24 n addr s
  | .movAmD8 m d n => Sys2Proof.Machine.execMovAmD8 m d n s
  | .movAmD16 m d n => Sys2Proof.Machine.execMovAmD16 m d n s
  | .movAmD24 m d n => Sys2Proof.Machine.execMovAmD24 m d n s
  | .movAnAbs16 n addr => Sys2Proof.Machine.execMovAnAbs16 n addr s
  | .movAnAbs24 n addr => Sys2Proof.Machine.execMovAnAbs24 n addr s
  | .movImm8Dn imm n => Sys2Proof.Machine.execMovImm8Dn imm n s
  | .movImm16Dn imm n => Sys2Proof.Machine.execMovImm16Dn imm n s
  | .movImm24Dn imm n => Sys2Proof.Machine.execMovImm24Dn imm n s
  | .movImm16An imm n => Sys2Proof.Machine.execMovImm16An imm n s
  | .movImm24An imm n => Sys2Proof.Machine.execMovImm24An imm n s
  | .movxD8Dm d n m => Sys2Proof.Machine.execMovxD8Dm d n m s
  | .movxD16Dm d n m => Sys2Proof.Machine.execMovxD16Dm d n m s
  | .movxD24Dm d n m => Sys2Proof.Machine.execMovxD24Dm d n m s
  | .movxDmD8 m d n => Sys2Proof.Machine.execMovxDmD8 m d n s
  | .movxDmD16 m d n => Sys2Proof.Machine.execMovxDmD16 m d n s
  | .movxDmD24 m d n => Sys2Proof.Machine.execMovxDmD24 m d n s
  | .movbD8Dm d n m => Sys2Proof.Machine.execMovbD8Dm d n m s
  | .movbD16Dm d n m => Sys2Proof.Machine.execMovbD16Dm d n m s
  | .movbD24Dm d n m => Sys2Proof.Machine.execMovbD24Dm d n m s
  | .movbIdxDm x n m => Sys2Proof.Machine.execMovbIdxDm x n m s
  | .movbAbs24Dn addr n => Sys2Proof.Machine.execMovbAbs24Dn addr n s
  | .movbDmInd m n => Sys2Proof.Machine.execMovbDmInd m n s
  | .movbDmD8 m d n => Sys2Proof.Machine.execMovbDmD8 m d n s
  | .movbDmD16 m d n => Sys2Proof.Machine.execMovbDmD16 m d n s
  | .movbDmD24 m d n => Sys2Proof.Machine.execMovbDmD24 m d n s
  | .movbDmIdx m x n => Sys2Proof.Machine.execMovbDmIdx m x n s
  | .movbDnAbs16 n addr => Sys2Proof.Machine.execMovbDnAbs16 n addr s
  | .movbDnAbs24 n addr => Sys2Proof.Machine.execMovbDnAbs24 n addr s
  | .movbuIndDm n m => Sys2Proof.Machine.execMovbuIndDm n m s
  | .movbuD8Dm d n m => Sys2Proof.Machine.execMovbuD8Dm d n m s
  | .movbuD16Dm d n m => Sys2Proof.Machine.execMovbuD16Dm d n m s
  | .movbuD24Dm d n m => Sys2Proof.Machine.execMovbuD24Dm d n m s
  | .movbuIdxDm x n m => Sys2Proof.Machine.execMovbuIdxDm x n m s
  | .movbuAbs16Dn addr n => Sys2Proof.Machine.execMovbuAbs16Dn addr n s
  | .movbuAbs24Dn addr n => Sys2Proof.Machine.execMovbuAbs24Dn addr n s
  | .extDn n => Sys2Proof.Machine.execExtDn n s
  | .extxDn n => Sys2Proof.Machine.execExtxDn n s
  | .extxuDn n => Sys2Proof.Machine.execExtxuDn n s
  | .extxbDn n => Sys2Proof.Machine.execExtxbDn n s
  | .extxbuDn n => Sys2Proof.Machine.execExtxbuDn n s
  | .addDnDm n m => Sys2Proof.Machine.execAddDnDm n m s
  | .addDmAn m n => Sys2Proof.Machine.execAddDmAn m n s
  | .addAnDm n m => Sys2Proof.Machine.execAddAnDm n m s
  | .addAnAm n m => Sys2Proof.Machine.execAddAnAm n m s
  | .addImm8Dn imm n => Sys2Proof.Machine.execAddImm8Dn imm n s
  | .addImm16Dn imm n => Sys2Proof.Machine.execAddImm16Dn imm n s
  | .addImm24Dn imm n => Sys2Proof.Machine.execAddImm24Dn imm n s
  | .addImm8An imm n => Sys2Proof.Machine.execAddImm8An imm n s
  | .addImm16An imm n => Sys2Proof.Machine.execAddImm16An imm n s
  | .addImm24An imm n => Sys2Proof.Machine.execAddImm24An imm n s
  | .addcDnDm n m => Sys2Proof.Machine.execAddcDnDm n m s
  | .addnfImm8An imm n => Sys2Proof.Machine.execAddnfImm8An imm n s
  | .subDnDm n m => Sys2Proof.Machine.execSubDnDm n m s
  | .subDmAn m n => Sys2Proof.Machine.execSubDmAn m n s
  | .subAnDm n m => Sys2Proof.Machine.execSubAnDm n m s
  | .subAnAm n m => Sys2Proof.Machine.execSubAnAm n m s
  | .subImm16Dn imm n => Sys2Proof.Machine.execSubImm16Dn imm n s
  | .subImm24Dn imm n => Sys2Proof.Machine.execSubImm24Dn imm n s
  | .subImm16An imm n => Sys2Proof.Machine.execSubImm16An imm n s
  | .subImm24An imm n => Sys2Proof.Machine.execSubImm24An imm n s
  | .subcDnDm n m => Sys2Proof.Machine.execSubcDnDm n m s
  | .mulDnDm n m => Sys2Proof.Machine.execMulDnDm n m s
  | .muluDnDm n m => Sys2Proof.Machine.execMuluDnDm n m s
  | .divuDnDm n m => Sys2Proof.Machine.execDivuDnDm n m s
  | .cmpDnDm n m => Sys2Proof.Machine.execCmpDnDm n m s
  | .cmpDmAn m n => Sys2Proof.Machine.execCmpDmAn m n s
  | .cmpAnDm n m => Sys2Proof.Machine.execCmpAnDm n m s
  | .cmpAnAm n m => Sys2Proof.Machine.execCmpAnAm n m s
  | .cmpImm8Dn imm n => Sys2Proof.Machine.execCmpImm8Dn imm n s
  | .cmpImm16Dn imm n => Sys2Proof.Machine.execCmpImm16Dn imm n s
  | .cmpImm24Dn imm n => Sys2Proof.Machine.execCmpImm24Dn imm n s
  | .cmpImm16An imm n => Sys2Proof.Machine.execCmpImm16An imm n s
  | .cmpImm24An imm n => Sys2Proof.Machine.execCmpImm24An imm n s
  | .andDnDm n m => Sys2Proof.Machine.execAndDnDm n m s
  | .andImm8Dn imm n => Sys2Proof.Machine.execAndImm8Dn imm n s
  | .andImm16Dn imm n => Sys2Proof.Machine.execAndImm16Dn imm n s
  | .andImm16Psw imm => Sys2Proof.Machine.execAndImm16Psw imm s
  | .orDnDm n m => Sys2Proof.Machine.execOrDnDm n m s
  | .orImm8Dn imm n => Sys2Proof.Machine.execOrImm8Dn imm n s
  | .orImm16Dn imm n => Sys2Proof.Machine.execOrImm16Dn imm n s
  | .orImm16Psw imm => Sys2Proof.Machine.execOrImm16Psw imm s
  | .xorDnDm n m => Sys2Proof.Machine.execXorDnDm n m s
  | .xorImm16Dn imm n => Sys2Proof.Machine.execXorImm16Dn imm n s
  | .notDn n => Sys2Proof.Machine.execNotDn n s
  | .asrDn n => Sys2Proof.Machine.execAsrDn n s
  | .lsrDn n => Sys2Proof.Machine.execLsrDn n s
  | .rorDn n => Sys2Proof.Machine.execRorDn n s
  | .rolDn n => Sys2Proof.Machine.execRolDn n s
  | .btstImm8Dn imm n => Sys2Proof.Machine.execBtstImm8Dn imm n s
  | .btstImm16Dn imm n => Sys2Proof.Machine.execBtstImm16Dn imm n s
  | .bsetDmInd m n => Sys2Proof.Machine.execBsetDmInd m n s
  | .bclrDmInd m n => Sys2Proof.Machine.execBclrDmInd m n s
  | .beq d => Sys2Proof.Machine.execBeq d s
  | .bne d => Sys2Proof.Machine.execBne d s
  | .blt d => Sys2Proof.Machine.execBlt d s
  | .ble d => Sys2Proof.Machine.execBle d s
  | .bge d => Sys2Proof.Machine.execBge d s
  | .bgt d => Sys2Proof.Machine.execBgt d s
  | .bcs d => Sys2Proof.Machine.execBcs d s
  | .bls d => Sys2Proof.Machine.execBls d s
  | .bcc d => Sys2Proof.Machine.execBcc d s
  | .bhi d => Sys2Proof.Machine.execBhi d s
  | .bvc d => Sys2Proof.Machine.execBvc d s
  | .bvs d => Sys2Proof.Machine.execBvs d s
  | .bnc d => Sys2Proof.Machine.execBnc d s
  | .bns d => Sys2Proof.Machine.execBns d s
  | .bra d => Sys2Proof.Machine.execBra d s
  | .beqx d => Sys2Proof.Machine.execBeqx d s
  | .bnex d => Sys2Proof.Machine.execBnex d s
  | .bltx d => Sys2Proof.Machine.execBltx d s
  | .blex d => Sys2Proof.Machine.execBlex d s
  | .bgex d => Sys2Proof.Machine.execBgex d s
  | .bgtx d => Sys2Proof.Machine.execBgtx d s
  | .bcsx d => Sys2Proof.Machine.execBcsx d s
  | .blsx d => Sys2Proof.Machine.execBlsx d s
  | .bccx d => Sys2Proof.Machine.execBccx d s
  | .bhix d => Sys2Proof.Machine.execBhix d s
  | .bvcx d => Sys2Proof.Machine.execBvcx d s
  | .bvsx d => Sys2Proof.Machine.execBvsx d s
  | .bncx d => Sys2Proof.Machine.execBncx d s
  | .bnsx d => Sys2Proof.Machine.execBnsx d s
  | .jmpLabel16 d => Sys2Proof.Machine.execJmpLabel16 d s
  | .jmpLabel24 d => Sys2Proof.Machine.execJmpLabel24 d s
  | .jmpInd n => Sys2Proof.Machine.execJmpInd n s
  | .jsrLabel16 d => Sys2Proof.Machine.execJsrLabel16 d s
  | .jsrLabel24 d => Sys2Proof.Machine.execJsrLabel24 d s
  | .jsrInd n => Sys2Proof.Machine.execJsrInd n s
  | .nop => Sys2Proof.Machine.execNop s
  | .rts => Sys2Proof.Machine.execRts s
  | .rti => Sys2Proof.Machine.execRti s
  | .movIndAm n m => Sys2Proof.Machine.execMovIndAm n m s
  | .movAmInd m n => Sys2Proof.Machine.execMovAmInd m n s
  | .movbIndDm n m => Sys2Proof.Machine.execMovbIndDm n m s
  | .movbAbs16Dn addr n => Sys2Proof.Machine.execMovbAbs16Dn addr n s

end Sys2Proof.Machine
end

