-- ==== Sys2Proof/Machine/Fetch.lean ====
section
/-! DEFINITION. Fetching an instruction (R64): its bytes are read from memory at the moment it executes (R52), one after
another until they are an instruction or an unassigned code. Fetch has no alignment rule (R46). -/

namespace Sys2Proof.Machine

/-- Fetch one instruction byte and go on with it. An unmapped address stops (R331); a device supplies its byte (R41);
a byte stored to since the last taken control transfer is a free value, `undef_8()` (R52; log 8). -/
def fetchByte (a : Nat) (s : State) (k : Byte → State → Result) : Result :=
  match s.kindAt a with
  | .unmapped => .fault (.unmappedAccess a)
  | .device => k (Config.deviceByte a s.draws) (s.consume 1)
  | _ =>
    if s.written.contains a then k (Config.undefByte s.draws) (s.consume 1)
    else k (s.byteAt a) s

/-- Fetch until the bytes so far are an instruction, and go on with it; `(pc + i) mod 2^24` is the address of byte i
(R16). The fuel is one more than the longest instruction has bytes, so it never runs out. -/
def fetchFrom (fuel : Nat) (acc : List Byte) (s : State) (k : Instr → State → Result) : Result :=
  match fuel with
  | 0 => .refused (.undefinedInstruction acc)
  | fuel + 1 =>
    match decode acc with
    | .ok i _ => k i s
    | .undefined => .refused (.undefinedInstruction acc)
    | .short =>
      fetchByte (s.pc + BitVec.ofNat 24 acc.length).toNat s fun b t => fetchFrom fuel (acc ++ [b]) t k

/-- Fetch the instruction at pc and go on with it. -/
def fetch (s : State) (k : Instr → State → Result) : Result := fetchFrom 6 [] s k

/-- The `n` bytes memory holds from pc on. -/
def State.codeBytes (s : State) (n : Nat) : List Byte :=
  (List.range n).map fun i => s.byteAt (s.pc + BitVec.ofNat 24 i).toNat

/-- May an instruction byte at this address be fetched from memory as it stands? -/
def State.fetchesMemory (s : State) (a : Nat) : Bool :=
  match s.kindAt a with
  | .ram => !s.written.contains a
  | .rom _ => !s.written.contains a
  | .device => false
  | .unmapped => false

/-- MEM_MAP with one address made RAM, if it is not RAM or ROM already. -/
def memMapWithCode (map : MemMap) (a : Nat) : MemMap :=
  match memKindOf map a with
  | .ram => map
  | .rom _ => map
  | .device => { map with regions := { base := a, size := 1, kind := .ram } :: map.regions }
  | .unmapped => { map with regions := { base := a, size := 1, kind := .ram } :: map.regions }

/-- Put instruction bytes in memory from an address on, as a loader outside the machine does (log 28): each byte is
mapped, and fetched as stored. -/
def State.placeCode (s : State) (ea : Ptr) : List Byte → State
  | [] => s
  | b :: bs =>
    State.placeCode
      { s with
        mem := Memory.write s.mem ea.toNat b
        written := s.written.filter (fun a => a != ea.toNat)
        platform := { s.platform with memMap := memMapWithCode s.platform.memMap ea.toNat } }
      (ea + 1) bs

/-- The events with nothing presented at the next boundary. -/
def quietFirst : List BoundaryEvent → List BoundaryEvent
  | [] => []
  | .quiet :: es => .quiet :: es
  | es => .quiet :: es

end Sys2Proof.Machine
end

