-- ==== Sys2Proof/Machine/Run.lean ====
section
/-! DEFINITION. What one step does: one instruction, one interrupt entry or one reset (R334, R344, D26). -/

namespace Sys2Proof.Machine

/-- Fetch the instruction at pc and execute it. -/
def runInstruction (s : State) : Result := fetch s exec

/-- What happens at an instruction boundary where the platform presents `e` (R333, R334, R342, R344): an accepted request
is entered in place of the next instruction; one that is not accepted leaves the instruction to run (log 15). -/
def takeEvent (e : BoundaryEvent) (s : State) : Result :=
  match e with
  | .quiet => runInstruction s
  | .maskable level => if acceptsMaskable s.platform s.psw level then enterMaskable level s else runInstruction s
  | .nonMaskable => enterNonMaskable s
  | .reset => .next (resetProcessor s)

/-- One step: the boundary event, if one is left, else the next instruction. -/
def nextStep (s : State) : Result :=
  match s.events with
  | [] => runInstruction s
  | e :: es => takeEvent e { s with events := es }

end Sys2Proof.Machine
end

