-- ==== Sys2Proof/Machine/Step.lean ====
section
/-! DEFINITION. The step function, and an instruction placed where it fetches next. -/

namespace Sys2Proof.Machine

/-- One step of the machine. -/
def step (s : State) : Host.Outcome State Fault Refusal := nextStep s

/-- The state with a table word stored where the next step fetches: its five bytes at pc, pc+1, .., nothing presented at
the next boundary (log 28). -/
def State.withFetchWord (s : State) (nbits w : Nat) : State :=
  { State.placeCode s s.pc (tableBytes nbits w) with events := quietFirst s.events }

end Sys2Proof.Machine
end

