-- ==== Sys2Proof/Safety.lean ====
section
/-! DEFINITION. The terms statements use: when an access is allowed, what an instruction leaves unchanged, what a
well-formed state is, when a run has ended. -/

namespace Sys2Proof.Machine

/-! Allowed accesses -/

/-- An `n`-byte load at `ea` may be made: the address is even if the access is of 16 or 24 bits (R45), and every byte
is mapped (R41). -/
def Loadable (s : State) (ea : Ptr) (n : Nat) : Prop :=
  (n = 1 ∨ ea.toNat % 2 = 0) ∧ ∀ a ∈ bytesFrom ea n, s.kindAt a ≠ .unmapped

/-- An `n`-byte store at `ea` may be made: as a load, and no byte lies in CODE_REGION (R52) or in a ROM whose stores stop
(R41). -/
def Storable (s : State) (ea : Ptr) (n : Nat) : Prop :=
  Loadable s ea n ∧ ∀ a ∈ bytesFrom ea n, s.isCode a = false ∧ s.kindAt a ≠ .rom .stops

/-- Every byte of an access is RAM. -/
def AllRam (s : State) (ea : Ptr) (n : Nat) : Prop := ∀ a ∈ bytesFrom ea n, s.kindAt a = .ram

/-- An `n`-byte access at `ea` that may not be made stops `r`, under the first reason that applies in the order of R331:
an odd address (R45), an unmapped byte (R41). Where several bytes are unmapped, the fault names one of them. -/
def StopsAsLoad (s : State) (ea : Ptr) (n : Nat) (r : Result) : Prop :=
  (n ≠ 1 → ea.toNat % 2 = 1 → r = .fault (.misalignedAccess ea.toNat)) ∧
  ((n = 1 ∨ ea.toNat % 2 = 0) → (∃ x ∈ bytesFrom ea n, s.kindAt x = .unmapped) →
    ∃ x ∈ bytesFrom ea n, s.kindAt x = .unmapped ∧ r = .fault (.unmappedAccess x))

/-- An `n`-byte store at `ea` that may not be made stops `r`: as a load, else for a byte of CODE_REGION (R52), else for a
byte of a ROM whose stores stop (R41). -/
def StopsAsStore (s : State) (ea : Ptr) (n : Nat) (r : Result) : Prop :=
  StopsAsLoad s ea n r ∧
  (Loadable s ea n → (∃ x ∈ bytesFrom ea n, s.isCode x = true) →
    ∃ x ∈ bytesFrom ea n, s.isCode x = true ∧ r = .fault (.codeWrite x)) ∧
  (Loadable s ea n → (∀ x ∈ bytesFrom ea n, s.isCode x = false) → (∃ x ∈ bytesFrom ea n, s.kindAt x = .rom .stops) →
    ∃ x ∈ bytesFrom ea n, s.kindAt x = .rom .stops ∧ r = .fault (.romStore x))

/-- What a store of these bytes at `ea` sends to devices: each byte whose address is a device's, with that address, the
highest address first, as devOut keeps them (R41, R349; the order is the model's choice, log 33). -/
def deviceBytes (s : State) (ea : Ptr) (bytes : List Byte) : List Host.Cell :=
  (((bytesFrom ea bytes.length).zip bytes).filter fun c => decide (s.kindAt c.1 = .device)).reverse

/-! Requests -/

/-- PSW_IM_POS puts the three bits of IM where R18 leaves room: above the flags, inside the 16 bits, not on IE. -/
def ImFits (pl : Platform) : Prop :=
  8 ≤ pl.pswImPos ∧ pl.pswImPos + 3 ≤ 16 ∧ (pl.pswImPos + 3 ≤ 11 ∨ 11 < pl.pswImPos)

/-- A maskable request of level `l` is accepted: IE, bit 11, is 1 (R21), and the platform's IRQ_ACCEPT admits it (R333):
by the spec's decision where `l` is below IM, else where a row of the platform's table agrees with the PSW. The PSW is the
stored one in all 16 bits, which for bits 15 and 14 is the model's choice (R23; log 16). -/
def IrqAccepted (s : State) (l : Fin 7) : Prop :=
  s.psw.getLsbD 11 = true ∧
    match s.platform.irqAccept with
    | .belowMask => l.val < (s.psw.extractLsb' s.platform.pswImPos 3).toNat
    | .rows table => ∃ r ∈ table, r.level = l ∧ ∀ k, r.mask.getLsbD k = true → s.psw.getLsbD k = r.value.getLsbD k

/-- The event is a request that is entered: non-maskable, or maskable and accepted (R333, R342). -/
def IsEntered (s : State) (e : BoundaryEvent) : Prop :=
  e = .nonMaskable ∨ ∃ l, e = .maskable l ∧ IrqAccepted s l

/-! Frames -/

/-- Every data register outside `ds` and every address register outside `as` is as before. -/
def KeepsRegs (s t : State) (ds : List DReg) (as : List AReg) : Prop :=
  (∀ r, r ∉ ds → t.d r = s.d r) ∧ ∀ r, r ∉ as → t.a r = s.a r

/-- Every byte of memory outside the addresses `xs` is as before, and so is what the devices were sent, unless `xs` has a
device address. -/
def KeepsMem (s t : State) (xs : List Nat) : Prop :=
  (∀ x, x ∉ xs → t.byteAt x = s.byteAt x) ∧ ((∀ x ∈ xs, s.kindAt x ≠ .device) → t.devOut = s.devOut)

/-- What no instruction changes: the platform and what it will present (R8, R333). -/
def KeepsPlatform (s t : State) : Prop := t.platform = s.platform ∧ t.events = s.events

/-- The instruction completes: the data register holds `v`, the PSW is `p`, pc is past the instruction, the rest is as
before. -/
def SetsD (i : Instr) (s : State) (r : DReg) (v : Ptr) (p : Word) : Prop :=
  ∃ t, exec i s = .next t ∧ t.d r = v ∧ t.psw = p ∧ t.mdr = s.mdr ∧ t.pc = s.nextPc i.length ∧
    KeepsRegs s t [r] [] ∧ KeepsMem s t [] ∧ KeepsPlatform s t

/-- The instruction completes: the address register holds `v`, the PSW is `p`, pc is past the instruction, the rest is as
before. -/
def SetsA (i : Instr) (s : State) (r : AReg) (v : Ptr) (p : Word) : Prop :=
  ∃ t, exec i s = .next t ∧ t.a r = v ∧ t.psw = p ∧ t.mdr = s.mdr ∧ t.pc = s.nextPc i.length ∧
    KeepsRegs s t [] [r] ∧ KeepsMem s t [] ∧ KeepsPlatform s t

/-- The instruction completes: only the PSW becomes `p` and MDR `v`; pc is past the instruction. -/
def SetsPswMdr (i : Instr) (s : State) (p v : Word) : Prop :=
  ∃ t, exec i s = .next t ∧ t.psw = p ∧ t.mdr = v ∧ t.pc = s.nextPc i.length ∧
    KeepsRegs s t [] [] ∧ KeepsMem s t [] ∧ KeepsPlatform s t

/-- The instruction completes: only pc changes, to `target`. -/
def JumpsTo (i : Instr) (s : State) (target : Ptr) : Prop :=
  ∃ t, exec i s = .next t ∧ t.pc = target ∧ t.psw = s.psw ∧ t.mdr = s.mdr ∧
    KeepsRegs s t [] [] ∧ KeepsMem s t [] ∧ KeepsPlatform s t

/-- Each byte of the access is what the list says where the address is RAM (R43: the j-th byte at ea + j mod 2^24). -/
def HoldsBytes (s t : State) (ea : Ptr) (bytes : List Byte) : Prop :=
  ∀ j (h : j < bytes.length), s.kindAt (ea + BitVec.ofNat 24 j).toNat = .ram →
    t.byteAt (ea + BitVec.ofNat 24 j).toNat = bytes[j]

/-- The instruction completes: the bytes at `ea` are stored, pc is past the instruction, no register and no other byte
changes. -/
def StoresAt (i : Instr) (s : State) (ea : Ptr) (bytes : List Byte) (p : Word) : Prop :=
  ∃ t, exec i s = .next t ∧ HoldsBytes s t ea bytes ∧ t.psw = p ∧ t.mdr = s.mdr ∧ t.pc = s.nextPc i.length ∧
    KeepsRegs s t [] [] ∧ KeepsMem s t (bytesFrom ea bytes.length) ∧ KeepsPlatform s t

/-- The instruction completes as a call: A3 is 4 lower, the return address is in the three bytes there, pc is `target`. -/
def CallsTo (i : Instr) (s : State) (target : Ptr) : Prop :=
  ∃ t, exec i s = .next t ∧ t.a3 = s.a3 - 4 ∧ HoldsBytes s t (s.a3 - 4) (le24 (s.nextPc i.length)) ∧ t.pc = target ∧
    t.psw = s.psw ∧ t.mdr = s.mdr ∧ KeepsRegs s t [] [.a3] ∧ KeepsMem s t (bytesFrom (s.a3 - 4) 3) ∧
    KeepsPlatform s t

/-! Tables of the spec, as statements read them -/

/-- The length the first byte alone gives, 0 for the unassigned 0xFF (the table of R60). -/
def firstByteLength (b : Nat) : Nat :=
  if b < 0x40 then 1
  else if b < 0x80 then 2
  else if b = 0x80 ∨ b = 0x85 ∨ b = 0x8A ∨ b = 0x8F then 2
  else if b < 0xC0 then 1
  else if b < 0xD0 then 3
  else if b < 0xDC then 2
  else if b < 0xE0 then 3
  else if b < 0xEB then 2
  else if b = 0xEB then 1
  else if b < 0xF0 then 3
  else if b < 0xF4 then 2
  else if b = 0xF4 then 5
  else if b = 0xF5 then 3
  else if b = 0xF6 then 1
  else if b = 0xF7 then 4
  else if b < 0xFE then 3
  else if b = 0xFE then 1
  else 0

/-- The second bytes that the rows "unassigned" of the maps R66 to R72 list, by prefix. -/
def unassignedSecond (pre b : Nat) : Bool :=
  match pre with
  | 0xF0 => (decide (b < 0x10) && decide (2 ≤ b % 4)) || (decide (0x10 ≤ b) && decide (b ≤ 0x1F))
  | 0xF1 => decide (b ≤ 0x3F) || (decide (0x80 ≤ b) && decide (b ≤ 0xBF))
  | 0xF2 => decide (0xA0 ≤ b) && decide (b ≤ 0xBF)
  | 0xF3 =>
    (decide (0x70 ≤ b) && decide (b ≤ 0x8F)) || (decide (0xA0 ≤ b) && decide (b ≤ 0xBF)) ||
      [0xC2, 0xC3, 0xC6, 0xC7, 0xCA, 0xCB, 0xCE, 0xCF].contains b ||
      (decide (0xD0 ≤ b) && decide (b ≤ 0xDF) && decide (b % 4 ≠ 0)) ||
      (decide (0xE8 ≤ b) && decide (b ≤ 0xEF)) || decide (0xF4 ≤ b)
  | 0xF4 =>
    (decide (0x48 ≤ b) && decide (b ≤ 0x4F)) || (decide (0x54 ≤ b) && decide (b ≤ 0x5F)) ||
      (decide (0xCC ≤ b) && decide (b ≤ 0xCF)) || (decide (0xD4 ≤ b) && decide (b ≤ 0xDF)) ||
      (decide (0xE2 ≤ b) && decide (b ≤ 0xEF))
  | 0xF5 =>
    (decide (0x40 ≤ b) && decide (b ≤ 0x4F)) || (decide (0x60 ≤ b) && decide (b ≤ 0x6F)) ||
      (decide (0x80 ≤ b) && decide (b ≤ 0xDF)) || decide (b = 0xEA) || decide (b = 0xEB) ||
      (decide (0xF0 ≤ b) && decide (b ≤ 0xFB))
  | 0xF7 =>
    [0x11, 0x12, 0x13, 0x15, 0x16, 0x17].contains b || (decide (0x24 ≤ b) && decide (b ≤ 0x2F)) ||
      (decide (0x34 ≤ b) && decide (b ≤ 0x3F)) || (decide (0x44 ≤ b) && decide (b ≤ 0x47)) || decide (0xE0 ≤ b)
  | _ => false

/-- A relative target: `(pc + L + D) mod 2^24`, as integers (R271). -/
def relTarget (s : State) (len : Nat) (disp : Int) : Ptr := BitVec.ofInt 24 ((s.pc.toNat : Int) + len + disp)

/-- The operands of CMP src,dest, the source widened to 24 bits (R207 to R215); none for every other instruction. -/
def cmpOperands (s : State) : Instr → Option (Ptr × Ptr)
  | .cmpDnDm n m => some (s.d n, s.d m)
  | .cmpDmAn m n => some (s.d m, s.a n)
  | .cmpAnDm n m => some (s.a n, s.d m)
  | .cmpAnAm n m => some (s.a n, s.a m)
  | .cmpImm8Dn imm n => some (imm.signExtend 24, s.d n)
  | .cmpImm16Dn imm n => some (imm.signExtend 24, s.d n)
  | .cmpImm24Dn imm n => some (imm, s.d n)
  | .cmpImm16An imm n => some (imm.zeroExtend 24, s.a n)
  | .cmpImm24An imm n => some (imm, s.a n)
  | _ => none

/-- The instructions that write MDR (R17). -/
def writesMdr : Instr → Bool
  | .mulDnDm _ _ => true
  | .muluDnDm _ _ => true
  | .divuDnDm _ _ => true
  | .extDn _ => true
  | .movDnMdr _ => true
  | _ => false

/-- The instructions that read MDR (R17). -/
def readsMdr : Instr → Bool
  | .divuDnDm _ _ => true
  | .movMdrDn _ => true
  | _ => false

/-- The instructions that write the whole PSW: MOV Dn,PSW, AND and OR imm16,PSW, RTI (R24). -/
def writesWholePsw : Instr → Bool
  | .movDnPsw _ => true
  | .andImm16Psw _ => true
  | .orImm16Psw _ => true
  | .rti => true
  | _ => false

/-- The instructions that write all eight flags and nothing else of the PSW: ADD, ADDC, SUB, SUBC, CMP, MUL, MULU, DIVU
(R24). -/
def writesEightFlags : Instr → Bool
  | .addDnDm _ _ | .addDmAn _ _ | .addAnDm _ _ | .addAnAm _ _ => true
  | .addImm8Dn _ _ | .addImm16Dn _ _ | .addImm24Dn _ _ => true
  | .addImm8An _ _ | .addImm16An _ _ | .addImm24An _ _ => true
  | .subDnDm _ _ | .subDmAn _ _ | .subAnDm _ _ | .subAnAm _ _ => true
  | .subImm16Dn _ _ | .subImm24Dn _ _ | .subImm16An _ _ | .subImm24An _ _ => true
  | .addcDnDm _ _ | .subcDnDm _ _ => true
  | .cmpDnDm _ _ | .cmpDmAn _ _ | .cmpAnDm _ _ | .cmpAnAm _ _ => true
  | .cmpImm8Dn _ _ | .cmpImm16Dn _ _ | .cmpImm24Dn _ _ | .cmpImm16An _ _ | .cmpImm24An _ _ => true
  | .mulDnDm _ _ | .muluDnDm _ _ | .divuDnDm _ _ => true
  | _ => false

/-- The instructions that write VF, CF, NF, ZF only: AND, OR, XOR, NOT, ASR, LSR, ROR, ROL, BTST, BSET, BCLR (R24). -/
def writesFourFlags : Instr → Bool
  | .andDnDm _ _ | .andImm8Dn _ _ | .andImm16Dn _ _ => true
  | .orDnDm _ _ | .orImm8Dn _ _ | .orImm16Dn _ _ => true
  | .xorDnDm _ _ | .xorImm16Dn _ _ | .notDn _ => true
  | .asrDn _ | .lsrDn _ | .rorDn _ | .rolDn _ => true
  | .btstImm8Dn _ _ | .btstImm16Dn _ _ | .bsetDmInd _ _ | .bclrDmInd _ _ => true
  | _ => false

/-- The instructions that store to memory: the stores of MOV, MOVX, MOVB, BSET, BCLR and the calls (R44, R50, R305). -/
def storesToMemory : Instr → Bool
  | .movDmInd _ _ | .movDmD8 _ _ _ | .movDmD16 _ _ _ | .movDmD24 _ _ _ | .movDmIdx _ _ _ => true
  | .movDnAbs16 _ _ | .movDnAbs24 _ _ => true
  | .movAmInd _ _ | .movAmD8 _ _ _ | .movAmD16 _ _ _ | .movAmD24 _ _ _ | .movAnAbs16 _ _ | .movAnAbs24 _ _ => true
  | .movxDmD8 _ _ _ | .movxDmD16 _ _ _ | .movxDmD24 _ _ _ => true
  | .movbDmInd _ _ | .movbDmD8 _ _ _ | .movbDmD16 _ _ _ | .movbDmD24 _ _ _ | .movbDmIdx _ _ _ => true
  | .movbDnAbs16 _ _ | .movbDnAbs24 _ _ => true
  | .bsetDmInd _ _ | .bclrDmInd _ _ => true
  | .jsrLabel16 _ | .jsrLabel24 _ | .jsrInd _ => true
  | _ => false

/-- The first load an instruction makes: its address and width in bytes (R44). RTI makes a second one, of three bytes at
A3+2. -/
def loadOf (s : State) : Instr → Option (Ptr × Nat)
  | .movIndDm n _ => some (s.eaInd n, 2)
  | .movD8Dm d n _ => some (s.eaD8 d n, 2)
  | .movD16Dm d n _ => some (s.eaD16 d n, 2)
  | .movD24Dm d n _ => some (s.eaD24 d n, 2)
  | .movIdxDm x n _ => some (s.eaIdx x n, 2)
  | .movAbs16Dn a _ => some (eaAbs16 a, 2)
  | .movAbs24Dn a _ => some (eaAbs24 a, 2)
  | .movIndAm n _ => some (s.eaInd n, 3)
  | .movD8Am d n _ | .movxD8Dm d n _ => some (s.eaD8 d n, 3)
  | .movD16Am d n _ | .movxD16Dm d n _ => some (s.eaD16 d n, 3)
  | .movD24Am d n _ | .movxD24Dm d n _ => some (s.eaD24 d n, 3)
  | .movAbs16An a _ => some (eaAbs16 a, 3)
  | .movAbs24An a _ => some (eaAbs24 a, 3)
  | .movbIndDm n _ | .movbuIndDm n _ | .bsetDmInd _ n | .bclrDmInd _ n => some (s.eaInd n, 1)
  | .movbD8Dm d n _ | .movbuD8Dm d n _ => some (s.eaD8 d n, 1)
  | .movbD16Dm d n _ | .movbuD16Dm d n _ => some (s.eaD16 d n, 1)
  | .movbD24Dm d n _ | .movbuD24Dm d n _ => some (s.eaD24 d n, 1)
  | .movbIdxDm x n _ | .movbuIdxDm x n _ => some (s.eaIdx x n, 1)
  | .movbAbs16Dn a _ | .movbuAbs16Dn a _ => some (eaAbs16 a, 1)
  | .movbAbs24Dn a _ | .movbuAbs24Dn a _ => some (eaAbs24 a, 1)
  | .rts => some (s.a3, 3)
  | .rti => some (s.a3, 2)
  | _ => none

/-- The low word of a register as the two bytes of a store, low byte first (R43, R44). -/
def twoBytes (v : Ptr) : List Byte := [v.extractLsb' 0 8, v.extractLsb' 8 8]

/-- A register as the three bytes of a store, low byte first (R43, R44). -/
def threeBytes (v : Ptr) : List Byte := [v.extractLsb' 0 8, v.extractLsb' 8 8, v.extractLsb' 16 8]

/-- The store an instruction makes: its address and its bytes, lowest address first (R43, R44). -/
def storeOf (s : State) (i : Instr) : Option (Ptr × List Byte) :=
  match i with
  | .movDmInd m n => some (s.eaInd n, twoBytes (s.d m))
  | .movDmD8 m d n => some (s.eaD8 d n, twoBytes (s.d m))
  | .movDmD16 m d n => some (s.eaD16 d n, twoBytes (s.d m))
  | .movDmD24 m d n => some (s.eaD24 d n, twoBytes (s.d m))
  | .movDmIdx m x n => some (s.eaIdx x n, twoBytes (s.d m))
  | .movDnAbs16 m a => some (eaAbs16 a, twoBytes (s.d m))
  | .movDnAbs24 m a => some (eaAbs24 a, twoBytes (s.d m))
  | .movAmInd m n => some (s.eaInd n, threeBytes (s.a m))
  | .movAmD8 m d n => some (s.eaD8 d n, threeBytes (s.a m))
  | .movAmD16 m d n => some (s.eaD16 d n, threeBytes (s.a m))
  | .movAmD24 m d n => some (s.eaD24 d n, threeBytes (s.a m))
  | .movAnAbs16 m a => some (eaAbs16 a, threeBytes (s.a m))
  | .movAnAbs24 m a => some (eaAbs24 a, threeBytes (s.a m))
  | .movxDmD8 m d n => some (s.eaD8 d n, threeBytes (s.d m))
  | .movxDmD16 m d n => some (s.eaD16 d n, threeBytes (s.d m))
  | .movxDmD24 m d n => some (s.eaD24 d n, threeBytes (s.d m))
  | .movbDmInd m n => some (s.eaInd n, [(s.d m).extractLsb' 0 8])
  | .movbDmD8 m d n => some (s.eaD8 d n, [(s.d m).extractLsb' 0 8])
  | .movbDmD16 m d n => some (s.eaD16 d n, [(s.d m).extractLsb' 0 8])
  | .movbDmD24 m d n => some (s.eaD24 d n, [(s.d m).extractLsb' 0 8])
  | .movbDmIdx m x n => some (s.eaIdx x n, [(s.d m).extractLsb' 0 8])
  | .movbDnAbs16 m a => some (eaAbs16 a, [(s.d m).extractLsb' 0 8])
  | .movbDnAbs24 m a => some (eaAbs24 a, [(s.d m).extractLsb' 0 8])
  | .bsetDmInd m n => some (s.eaInd n, [s.peek8 (s.eaInd n) ||| (s.d m).extractLsb' 0 8])
  | .bclrDmInd m n => some (s.eaInd n, [s.peek8 (s.eaInd n) &&& ~~~(s.d m).extractLsb' 0 8])
  | .jsrLabel16 _ | .jsrLabel24 _ | .jsrInd _ => some (s.a3 - 4, threeBytes (s.nextPc i.length))
  | _ => none

/-! Well-formed states and the end of a run -/

/-- What every step keeps: memory is in canonical form, and the addresses the model's own lists hold are addresses
(R40). -/
def State.Inv (s : State) : Prop :=
  Memory.wf s.mem = true ∧ (∀ a ∈ s.written, a < 2 ^ 24) ∧ ∀ c ∈ s.devOut, c.1 < 2 ^ 24

/-- A run has ended: pc is END_PC and the instruction there branches to itself, EA FE or FC FD FF (R375, D28; log 31). That
the instruction is the bytes memory holds there, also where a fetch would not answer them (a byte stored to since the last
taken control transfer, R52; a device; an unmapped address), is the model's choice: R375 does not say. DESIGN CHOICE,
unsafe for a claim about the next step, log 31. -/
def State.atEnd (s : State) (endPc : Ptr) : Prop :=
  s.pc = endPc ∧ (s.codeBytes 2 = [0xEA, 0xFE] ∨ s.codeBytes 3 = [0xFC, 0xFD, 0xFF])

end Sys2Proof.Machine
end

