-- ==== Sys2Proof/Certificates/Slice0/Obligations.lean ====
section
/-! DEFINITION. The statements for the provers. `KeepsRegs`, `KeepsMem`, `SetsD` and the other terms are those of
Sys2Proof/Safety.lean. -/

section
open Sys2Proof Sys2Proof.Machine

/-! Encoding -/

/-- Words written out from the code expressions and examples of their rules: R101, R103, R135, R139, R156, R130, R183,
R204, R239, R262, R288, R312. That 0x14 is MOVB D1,(A0), its register fields unlike those of its fellows, is the spec's
decision D25 on the conflict C16 (log 23). -/
def Obligations.DecodeReadsWordsOfTheSpec : Prop :=
  decode [0xF2, 0x36] = .ok (.movDmAn .d1 .a2) [] ∧
  decode [0x8E] = .ok (.movDnDm .d3 .d2) [] ∧
  decode [0x85, 0x08] = .ok (.movImm8Dn 0x08 .d1) [] ∧
  decode [0xF4, 0x77, 0x00, 0x00, 0x08] = .ok (.movImm24An 0x080000 .a3) [] ∧
  decode [0x14] = .ok (.movbDmInd .d1 .a0) [] ∧
  decode [0x5E, 0x08] = .ok (.movAmD8 .a2 0x08 .a3) [] ∧
  decode [0x94] = .ok (.addDnDm .d1 .d0) [] ∧
  decode [0xF3, 0x44] = .ok (.mulDnDm .d1 .d0) [] ∧
  decode [0xF3, 0x24] = .ok (.xorDnDm .d1 .d0) [] ∧
  decode [0xF0, 0x29] = .ok (.bsetDmInd .d1 .a2) [] ∧
  decode [0xF5, 0xE8, 0x05] = .ok (.beqx 0x05) [] ∧
  decode [0xEB] = .ok .rti []

/-- Decoding the encoding of a well-formed instruction gives it back, whatever bytes follow (R62, R63, R82). -/
def Obligations.DecodeUndoesEncode : Prop :=
  ∀ (i : Instr) (rest : List Byte), i.wellFormed = true → decode (encode i ++ rest) = .ok i rest

/-- Every instruction the decoder answers is well-formed, and the bytes it read are that instruction's encoding: no two
codes mean one instruction, and no code has a don't-care bit (R82, R86). -/
def Obligations.DecodeAnswersOnlyEncodings : Prop :=
  ∀ (bs : List Byte) (i : Instr) (rest : List Byte), decode bs = .ok i rest →
    i.wellFormed = true ∧ bs = encode i ++ rest

/-- The first byte alone gives the length, by the table of R60, and 0xFF starts no instruction. -/
def Obligations.FirstByteGivesLength : Prop :=
  ∀ (b : Byte) (bs : List Byte),
    (∀ i rest, decode (b :: bs) = .ok i rest → i.length = firstByteLength b.toNat ∧
      (b :: bs).length = i.length + rest.length) ∧
    (firstByteLength b.toNat = 0 → decode (b :: bs) = .undefined)

/-- The unassigned codes are exactly the first byte 0xFF and the second bytes that R66 to R72 list (R80). -/
def Obligations.UnassignedCodesAreTheListedOnes : Prop :=
  ∀ bs : List Byte, decode bs = .undefined ↔
    ∃ (b : Byte) (r : List Byte), bs = b :: r ∧
      (b = 0xFF ∨ ∃ (c : Byte) (r' : List Byte), r = c :: r' ∧ unassignedSecond b.toNat c.toNat = true)

/-! Fetch and step -/

/-- A step runs the instruction that the bytes at pc decode to, when the platform presents nothing and those bytes are
memory as it stands (R52, R64). -/
def Obligations.StepRunsDecodedInstruction : Prop :=
  ∀ (s : State) (n : Nat) (i : Instr) (es : List BoundaryEvent),
    (∀ k < n, s.fetchesMemory (s.pc + BitVec.ofNat 24 k).toNat = true) → decode (s.codeBytes n) = .ok i [] →
    (s.events = [] → step s = exec i s) ∧
    (s.events = .quiet :: es → step s = exec i { s with events := es })

/-- Bytes at pc that are an unassigned code stop the machine under the name undefinedInstruction (R80, D4). -/
def Obligations.StepRefusesUnassignedCode : Prop :=
  ∀ s : State, s.events = [] → s.fetchesMemory s.pc.toNat = true →
    (s.byteAt s.pc.toNat = 0xFF → step s = .refused (.undefinedInstruction [0xFF])) ∧
    (s.fetchesMemory (s.pc + 1).toNat = true →
      unassignedSecond (s.byteAt s.pc.toNat).toNat (s.byteAt (s.pc + 1).toNat).toNat = true →
      step s = .refused (.undefinedInstruction [s.byteAt s.pc.toNat, s.byteAt (s.pc + 1).toNat]))

/-- A fetch from an unmapped address stops (R41: the spec's decision D11, log 9); the fetch of a byte stored to since the
last taken control transfer goes on with a free value, whatever memory holds (R52: the spec's decision D8, log 8). -/
def Obligations.FetchOfUnmappedAndOfStoredBytes : Prop :=
  (∀ s : State, s.events = [] → s.kindAt s.pc.toNat = .unmapped → step s = .fault (.unmappedAccess s.pc.toNat)) ∧
  (∀ (s : State) (a : Nat) (k : Byte → State → Result), s.kindAt a = .ram → a ∈ s.written →
    fetchByte a s k = k (Config.undefByte s.draws) (s.consume 1))

/-! Data moves -/

/-- Moves between registers and of immediates: the destination's new value and the frame (R101 to R104, R107, R135 to
R139). -/
def Obligations.RegisterAndImmediateMoves : Prop :=
  ∀ (s : State) (n m : DReg) (a b : AReg) (imm8 : Byte) (imm16 : Word) (imm24 : Ptr),
    SetsA (.movDmAn m a) s a (s.d m) s.psw ∧
    SetsD (.movAnDm a m) s m (s.a a) s.psw ∧
    SetsD (.movDnDm n m) s m (s.d n) s.psw ∧
    SetsA (.movAnAm a b) s b (s.a a) s.psw ∧
    SetsD (.movMdrDn n) s n (s.mdr.zeroExtend 24) s.psw ∧
    SetsD (.movImm8Dn imm8 n) s n (imm8.signExtend 24) s.psw ∧
    SetsD (.movImm16Dn imm16 n) s n (imm16.signExtend 24) s.psw ∧
    SetsD (.movImm24Dn imm24 n) s n imm24 s.psw ∧
    SetsA (.movImm16An imm16 a) s a (imm16.zeroExtend 24) s.psw ∧
    SetsA (.movImm24An imm24 a) s a imm24 s.psw

/-- MOV PSW,Dn: bits 13..0 of PSW, a free value in bits 15 and 14, zeros above (R105, R23; the free values are the
spec's decision D2, log 13). -/
def Obligations.MovPswDnReadsPsw : Prop :=
  ∀ (s : State) (n : DReg), ∃ b15 b14 : Bool,
    SetsD (.movPswDn n) s n
      ((BitVec.ofBool b15 ++ BitVec.ofBool b14 ++ s.psw.extractLsb' 0 14 : Word).zeroExtend 24) s.psw

/-- MOV Dn,PSW writes all 16 bits of PSW, MOV Dn,MDR writes MDR, EXT writes the sign of the low word to MDR; no register
changes (R106, R108, R170). -/
def Obligations.PswAndMdrWrites : Prop :=
  ∀ (s : State) (n : DReg),
    SetsPswMdr (.movDnPsw n) s ((s.d n).extractLsb' 0 16) s.mdr ∧
    SetsPswMdr (.movDnMdr n) s s.psw ((s.d n).extractLsb' 0 16) ∧
    SetsPswMdr (.extDn n) s s.psw (if (s.d n).getLsbD 15 then 0xFFFF else 0)

/-- EXTX, EXTXU, EXTXB, EXTXBU: the code, and the register is its own low word or byte, sign- or zero-extended (R171 to
R174). -/
def Obligations.ExtensionsInPlace : Prop :=
  ∀ (s : State) (n : DReg) (rest : List Byte),
    let code := fun (base : Nat) (i : Instr) => decode (BitVec.ofNat 8 (base + n.num) :: rest) = .ok i rest
    code 0xB0 (.extxDn n) ∧ SetsD (.extxDn n) s n (((s.d n).extractLsb' 0 16).signExtend 24) s.psw ∧
    code 0xB4 (.extxuDn n) ∧ SetsD (.extxuDn n) s n (s.d n &&& 0x00FFFF) s.psw ∧
    code 0xB8 (.extxbDn n) ∧ SetsD (.extxbDn n) s n (((s.d n).extractLsb' 0 8).signExtend 24) s.psw ∧
    code 0xBC (.extxbuDn n) ∧ SetsD (.extxbuDn n) s n (s.d n &&& 0x0000FF) s.psw

/-- The effective addresses of the seven memory addressing modes, as numbers modulo 2^24 (R48). -/
def Obligations.EffectiveAddressesModulo : Prop :=
  ∀ (s : State) (n : AReg) (x : DReg) (d8 : Byte) (d16 : Word) (d24 : Ptr),
    s.eaInd n = s.a n ∧
    ((s.eaD8 d8 n).toNat : Int) = ((s.a n).toNat + d8.toInt) % 2 ^ 24 ∧
    ((s.eaD16 d16 n).toNat : Int) = ((s.a n).toNat + d16.toInt) % 2 ^ 24 ∧
    (s.eaD24 d24 n).toNat = ((s.a n).toNat + d24.toNat) % 2 ^ 24 ∧
    (s.eaIdx x n).toNat = ((s.a n).toNat + (s.d x).toNat) % 2 ^ 24 ∧
    (eaAbs16 d16).toNat = d16.toNat ∧
    eaAbs24 d24 = d24

/-- Little-endian reads of memory: the low byte at the lowest address, each address mod 2^24 (R43). -/
def Obligations.ReadsAreLittleEndian : Prop :=
  ∀ (s : State) (ea : Ptr), (∀ a ∈ bytesFrom ea 3, s.kindAt a ≠ .device) →
    s.peek8 ea = s.byteAt ea.toNat ∧
    s.peek16 ea = s.byteAt (ea + 1).toNat ++ s.byteAt ea.toNat ∧
    s.peek24 ea = s.byteAt (ea + 2).toNat ++ s.byteAt (ea + 1).toNat ++ s.byteAt ea.toNat

/-- MOV (..),Dn: a word is loaded and sign-extended to 24 bits (R109 to R115). -/
def Obligations.WordLoads : Prop :=
  ∀ (s : State) (n : AReg) (m x : DReg) (d8 : Byte) (d16 : Word) (d24 : Ptr),
    (Loadable s (s.eaInd n) 2 → SetsD (.movIndDm n m) s m ((s.peek16 (s.eaInd n)).signExtend 24) s.psw) ∧
    (Loadable s (s.eaD8 d8 n) 2 → SetsD (.movD8Dm d8 n m) s m ((s.peek16 (s.eaD8 d8 n)).signExtend 24) s.psw) ∧
    (Loadable s (s.eaD16 d16 n) 2 → SetsD (.movD16Dm d16 n m) s m ((s.peek16 (s.eaD16 d16 n)).signExtend 24) s.psw) ∧
    (Loadable s (s.eaD24 d24 n) 2 → SetsD (.movD24Dm d24 n m) s m ((s.peek16 (s.eaD24 d24 n)).signExtend 24) s.psw) ∧
    (Loadable s (s.eaIdx x n) 2 → SetsD (.movIdxDm x n m) s m ((s.peek16 (s.eaIdx x n)).signExtend 24) s.psw) ∧
    (Loadable s (eaAbs16 d16) 2 → SetsD (.movAbs16Dn d16 m) s m ((s.peek16 (eaAbs16 d16)).signExtend 24) s.psw) ∧
    (Loadable s (eaAbs24 d24) 2 → SetsD (.movAbs24Dn d24 m) s m ((s.peek16 (eaAbs24 d24)).signExtend 24) s.psw)

/-- MOV (..),An and MOVX (..),Dn: three bytes are loaded as they are (R116 to R121, R141 to R143). -/
def Obligations.PointerLoads : Prop :=
  ∀ (s : State) (n m : AReg) (r : DReg) (d8 : Byte) (d16 : Word) (d24 : Ptr),
    (Loadable s (s.eaInd n) 3 → SetsA (.movIndAm n m) s m (s.peek24 (s.eaInd n)) s.psw) ∧
    (Loadable s (s.eaD8 d8 n) 3 → SetsA (.movD8Am d8 n m) s m (s.peek24 (s.eaD8 d8 n)) s.psw) ∧
    (Loadable s (s.eaD16 d16 n) 3 → SetsA (.movD16Am d16 n m) s m (s.peek24 (s.eaD16 d16 n)) s.psw) ∧
    (Loadable s (s.eaD24 d24 n) 3 → SetsA (.movD24Am d24 n m) s m (s.peek24 (s.eaD24 d24 n)) s.psw) ∧
    (Loadable s (eaAbs16 d16) 3 → SetsA (.movAbs16An d16 m) s m (s.peek24 (eaAbs16 d16)) s.psw) ∧
    (Loadable s (eaAbs24 d24) 3 → SetsA (.movAbs24An d24 m) s m (s.peek24 (eaAbs24 d24)) s.psw) ∧
    (Loadable s (s.eaD8 d8 n) 3 → SetsD (.movxD8Dm d8 n r) s r (s.peek24 (s.eaD8 d8 n)) s.psw) ∧
    (Loadable s (s.eaD16 d16 n) 3 → SetsD (.movxD16Dm d16 n r) s r (s.peek24 (s.eaD16 d16 n)) s.psw) ∧
    (Loadable s (s.eaD24 d24 n) 3 → SetsD (.movxD24Dm d24 n r) s r (s.peek24 (s.eaD24 d24 n)) s.psw)

/-- MOVB (..),Dn: a byte is loaded, at any address, and sign-extended to 24 bits (R148 to R155). MOVB (An),Dm and MOVB
(abs16),Dn are two instructions each, MOVBU and EXTXB, with a boundary between them (R83, R149, R154); that one exec does
both is the model's choice, and the decoder never answers the two (log 25). -/
def Obligations.SignedByteLoads : Prop :=
  ∀ (s : State) (n : AReg) (m x : DReg) (d8 : Byte) (d16 : Word) (d24 : Ptr),
    (Loadable s (s.eaInd n) 1 → SetsD (.movbIndDm n m) s m ((s.peek8 (s.eaInd n)).signExtend 24) s.psw) ∧
    (Loadable s (s.eaD8 d8 n) 1 → SetsD (.movbD8Dm d8 n m) s m ((s.peek8 (s.eaD8 d8 n)).signExtend 24) s.psw) ∧
    (Loadable s (s.eaD16 d16 n) 1 → SetsD (.movbD16Dm d16 n m) s m ((s.peek8 (s.eaD16 d16 n)).signExtend 24) s.psw) ∧
    (Loadable s (s.eaD24 d24 n) 1 → SetsD (.movbD24Dm d24 n m) s m ((s.peek8 (s.eaD24 d24 n)).signExtend 24) s.psw) ∧
    (Loadable s (s.eaIdx x n) 1 → SetsD (.movbIdxDm x n m) s m ((s.peek8 (s.eaIdx x n)).signExtend 24) s.psw) ∧
    (Loadable s (eaAbs16 d16) 1 → SetsD (.movbAbs16Dn d16 m) s m ((s.peek8 (eaAbs16 d16)).signExtend 24) s.psw) ∧
    (Loadable s (eaAbs24 d24) 1 → SetsD (.movbAbs24Dn d24 m) s m ((s.peek8 (eaAbs24 d24)).signExtend 24) s.psw)

/-- MOVBU (..),Dn: a byte is loaded, at any address, and zero-extended to 24 bits (R163 to R169). -/
def Obligations.ZeroExtendedByteLoads : Prop :=
  ∀ (s : State) (n : AReg) (m x : DReg) (d8 : Byte) (d16 : Word) (d24 : Ptr),
    (Loadable s (s.eaInd n) 1 → SetsD (.movbuIndDm n m) s m ((s.peek8 (s.eaInd n)).zeroExtend 24) s.psw) ∧
    (Loadable s (s.eaD8 d8 n) 1 → SetsD (.movbuD8Dm d8 n m) s m ((s.peek8 (s.eaD8 d8 n)).zeroExtend 24) s.psw) ∧
    (Loadable s (s.eaD16 d16 n) 1 →
      SetsD (.movbuD16Dm d16 n m) s m ((s.peek8 (s.eaD16 d16 n)).zeroExtend 24) s.psw) ∧
    (Loadable s (s.eaD24 d24 n) 1 →
      SetsD (.movbuD24Dm d24 n m) s m ((s.peek8 (s.eaD24 d24 n)).zeroExtend 24) s.psw) ∧
    (Loadable s (s.eaIdx x n) 1 → SetsD (.movbuIdxDm x n m) s m ((s.peek8 (s.eaIdx x n)).zeroExtend 24) s.psw) ∧
    (Loadable s (eaAbs16 d16) 1 → SetsD (.movbuAbs16Dn d16 m) s m ((s.peek8 (eaAbs16 d16)).zeroExtend 24) s.psw) ∧
    (Loadable s (eaAbs24 d24) 1 → SetsD (.movbuAbs24Dn d24 m) s m ((s.peek8 (eaAbs24 d24)).zeroExtend 24) s.psw)

/-- MOV Dn,(..): the low word of the register is stored, low byte first; nothing else changes (R122 to R128). The byte
order is the spec's decision D20 (R43; log 19). What goes out where a byte is a device's: DeviceStoresGoOut. -/
def Obligations.WordStores : Prop :=
  ∀ (s : State) (n : AReg) (m x : DReg) (d8 : Byte) (d16 : Word) (d24 : Ptr), s.Inv →
    let bytes := [(s.d m).extractLsb' 0 8, (s.d m).extractLsb' 8 8]
    (Storable s (s.eaInd n) 2 → StoresAt (.movDmInd m n) s (s.eaInd n) bytes s.psw) ∧
    (Storable s (s.eaD8 d8 n) 2 → StoresAt (.movDmD8 m d8 n) s (s.eaD8 d8 n) bytes s.psw) ∧
    (Storable s (s.eaD16 d16 n) 2 → StoresAt (.movDmD16 m d16 n) s (s.eaD16 d16 n) bytes s.psw) ∧
    (Storable s (s.eaD24 d24 n) 2 → StoresAt (.movDmD24 m d24 n) s (s.eaD24 d24 n) bytes s.psw) ∧
    (Storable s (s.eaIdx x n) 2 → StoresAt (.movDmIdx m x n) s (s.eaIdx x n) bytes s.psw) ∧
    (Storable s (eaAbs16 d16) 2 → StoresAt (.movDnAbs16 m d16) s (eaAbs16 d16) bytes s.psw) ∧
    (Storable s (eaAbs24 d24) 2 → StoresAt (.movDnAbs24 m d24) s (eaAbs24 d24) bytes s.psw)

/-- MOV An,(..) and MOVX Dn,(..): exactly three bytes are stored, low byte first; the byte at ea+3 and all else stay
(R129 to R134, R144 to R146). The byte order is the spec's decision D20 (R43; log 19), that ea+3 stays D14 (R44; log 21).
What goes out where a byte is a device's: DeviceStoresGoOut. -/
def Obligations.PointerStores : Prop :=
  ∀ (s : State) (n m : AReg) (r : DReg) (d8 : Byte) (d16 : Word) (d24 : Ptr), s.Inv →
    let three := fun v : Ptr => [v.extractLsb' 0 8, v.extractLsb' 8 8, v.extractLsb' 16 8]
    (Storable s (s.eaInd n) 3 → StoresAt (.movAmInd m n) s (s.eaInd n) (three (s.a m)) s.psw) ∧
    (Storable s (s.eaD8 d8 n) 3 → StoresAt (.movAmD8 m d8 n) s (s.eaD8 d8 n) (three (s.a m)) s.psw) ∧
    (Storable s (s.eaD16 d16 n) 3 → StoresAt (.movAmD16 m d16 n) s (s.eaD16 d16 n) (three (s.a m)) s.psw) ∧
    (Storable s (s.eaD24 d24 n) 3 → StoresAt (.movAmD24 m d24 n) s (s.eaD24 d24 n) (three (s.a m)) s.psw) ∧
    (Storable s (eaAbs16 d16) 3 → StoresAt (.movAnAbs16 m d16) s (eaAbs16 d16) (three (s.a m)) s.psw) ∧
    (Storable s (eaAbs24 d24) 3 → StoresAt (.movAnAbs24 m d24) s (eaAbs24 d24) (three (s.a m)) s.psw) ∧
    (Storable s (s.eaD8 d8 n) 3 → StoresAt (.movxDmD8 r d8 n) s (s.eaD8 d8 n) (three (s.d r)) s.psw) ∧
    (Storable s (s.eaD16 d16 n) 3 → StoresAt (.movxDmD16 r d16 n) s (s.eaD16 d16 n) (three (s.d r)) s.psw) ∧
    (Storable s (s.eaD24 d24 n) 3 → StoresAt (.movxDmD24 r d24 n) s (s.eaD24 d24 n) (three (s.d r)) s.psw)

/-- MOVB Dn,(..): the low byte of the register is stored, at any address; nothing else changes (R156 to R162). What goes
out where the byte is a device's: DeviceStoresGoOut. -/
def Obligations.ByteStores : Prop :=
  ∀ (s : State) (n : AReg) (m x : DReg) (d8 : Byte) (d16 : Word) (d24 : Ptr), s.Inv →
    let byte := [(s.d m).extractLsb' 0 8]
    (Storable s (s.eaInd n) 1 → StoresAt (.movbDmInd m n) s (s.eaInd n) byte s.psw) ∧
    (Storable s (s.eaD8 d8 n) 1 → StoresAt (.movbDmD8 m d8 n) s (s.eaD8 d8 n) byte s.psw) ∧
    (Storable s (s.eaD16 d16 n) 1 → StoresAt (.movbDmD16 m d16 n) s (s.eaD16 d16 n) byte s.psw) ∧
    (Storable s (s.eaD24 d24 n) 1 → StoresAt (.movbDmD24 m d24 n) s (s.eaD24 d24 n) byte s.psw) ∧
    (Storable s (s.eaIdx x n) 1 → StoresAt (.movbDmIdx m x n) s (s.eaIdx x n) byte s.psw) ∧
    (Storable s (eaAbs16 d16) 1 → StoresAt (.movbDnAbs16 m d16) s (eaAbs16 d16) byte s.psw) ∧
    (Storable s (eaAbs24 d24) 1 → StoresAt (.movbDnAbs24 m d24) s (eaAbs24 d24) byte s.psw)

/-! Arithmetic -/

/-- AddFlags as numbers: the sum modulo 2^24, the signed overflow and the carry of 24 and of 16 bits, sign and zero of the
result (R19, R180). -/
def Obligations.AddFlagsMeanOverflowAndCarry : Prop :=
  ∀ (a b : Ptr) (cin : Bool),
    let r := addResult a b cin
    let f := addFlags a b cin
    let lo := fun v : Ptr => v.extractLsb' 0 16
    r.toNat = (a.toNat + b.toNat + cin.toNat) % 2 ^ 24 ∧
    (f.vx = true ↔ a.toInt + b.toInt + cin.toNat < -2 ^ 23 ∨ 2 ^ 23 ≤ a.toInt + b.toInt + cin.toNat) ∧
    (f.cx = true ↔ 2 ^ 24 ≤ a.toNat + b.toNat + cin.toNat) ∧
    (f.nx = true ↔ r.toInt < 0) ∧
    (f.zx = true ↔ r = 0) ∧
    (f.vf = true ↔ (lo a).toInt + (lo b).toInt + cin.toNat < -2 ^ 15 ∨
      2 ^ 15 ≤ (lo a).toInt + (lo b).toInt + cin.toNat) ∧
    (f.cf = true ↔ 2 ^ 16 ≤ (lo a).toNat + (lo b).toNat + cin.toNat) ∧
    (f.nf = true ↔ (lo r).toInt < 0) ∧
    (f.zf = true ↔ lo r = 0)

/-- SubFlags as numbers: the difference modulo 2^24, the signed overflow and the borrow of 24 and of 16 bits, sign and
zero of the result (R19, R181). -/
def Obligations.SubFlagsMeanOverflowAndBorrow : Prop :=
  ∀ (a b : Ptr) (bin : Bool),
    let r := subResult a b bin
    let f := subFlags a b bin
    let lo := fun v : Ptr => v.extractLsb' 0 16
    (r.toNat : Int) = ((a.toNat : Int) - b.toNat - bin.toNat) % 2 ^ 24 ∧
    (f.vx = true ↔ a.toInt - b.toInt - bin.toNat < -2 ^ 23 ∨ 2 ^ 23 ≤ a.toInt - b.toInt - bin.toNat) ∧
    (f.cx = true ↔ a.toNat < b.toNat + bin.toNat) ∧
    (f.nx = true ↔ r.toInt < 0) ∧
    (f.zx = true ↔ r = 0) ∧
    (f.vf = true ↔ (lo a).toInt - (lo b).toInt - bin.toNat < -2 ^ 15 ∨
      2 ^ 15 ≤ (lo a).toInt - (lo b).toInt - bin.toNat) ∧
    (f.cf = true ↔ (lo a).toNat < (lo b).toNat + bin.toNat) ∧
    (f.nf = true ↔ (lo r).toInt < 0) ∧
    (f.zf = true ↔ lo r = 0)

/-- Where the flags stand in the PSW: writing all eight keeps bits 15..8, writing four keeps bits 15..4, and each flag
reads back (R18, R24). -/
def Obligations.FlagPlacesInPsw : Prop :=
  ∀ (p : Word) (f : ResultFlags) (vf cf nf zf : Bool),
    let q := pswSetFlags p f
    let l := pswSetLowFlags p vf cf nf zf
    q.extractLsb' 8 8 = p.extractLsb' 8 8 ∧
    (q.getLsbD 7 = f.vx ∧ q.getLsbD 6 = f.cx ∧ q.getLsbD 5 = f.nx ∧ q.getLsbD 4 = f.zx) ∧
    (q.getLsbD 3 = f.vf ∧ q.getLsbD 2 = f.cf ∧ q.getLsbD 1 = f.nf ∧ q.getLsbD 0 = f.zf) ∧
    l.extractLsb' 4 12 = p.extractLsb' 4 12 ∧
    (l.getLsbD 3 = vf ∧ l.getLsbD 2 = cf ∧ l.getLsbD 1 = nf ∧ l.getLsbD 0 = zf)

/-- ADD, all ten forms: sum, all eight flags, frame (R183 to R192). -/
def Obligations.AddForms : Prop :=
  ∀ (s : State) (n m : DReg) (a b : AReg) (imm8 : Byte) (imm16 : Word) (imm24 : Ptr),
    let sumD := fun (i : Instr) (r : DReg) (v : Ptr) =>
      SetsD i s r (addResult (s.d r) v false) (pswSetFlags s.psw (addFlags (s.d r) v false))
    let sumA := fun (i : Instr) (r : AReg) (v : Ptr) =>
      SetsA i s r (addResult (s.a r) v false) (pswSetFlags s.psw (addFlags (s.a r) v false))
    sumD (.addDnDm n m) m (s.d n) ∧ sumA (.addDmAn m a) a (s.d m) ∧ sumD (.addAnDm a m) m (s.a a) ∧
    sumA (.addAnAm a b) b (s.a a) ∧ sumD (.addImm8Dn imm8 n) n (imm8.signExtend 24) ∧
    sumD (.addImm16Dn imm16 n) n (imm16.signExtend 24) ∧ sumD (.addImm24Dn imm24 n) n imm24 ∧
    sumA (.addImm8An imm8 a) a (imm8.signExtend 24) ∧ sumA (.addImm16An imm16 a) a (imm16.signExtend 24) ∧
    sumA (.addImm24An imm24 a) a imm24

/-- SUB, all eight forms: difference, all eight flags, frame (R195 to R202). -/
def Obligations.SubForms : Prop :=
  ∀ (s : State) (n m : DReg) (a b : AReg) (imm16 : Word) (imm24 : Ptr),
    let diffD := fun (i : Instr) (r : DReg) (v : Ptr) =>
      SetsD i s r (subResult (s.d r) v false) (pswSetFlags s.psw (subFlags (s.d r) v false))
    let diffA := fun (i : Instr) (r : AReg) (v : Ptr) =>
      SetsA i s r (subResult (s.a r) v false) (pswSetFlags s.psw (subFlags (s.a r) v false))
    diffD (.subDnDm n m) m (s.d n) ∧ diffA (.subDmAn m a) a (s.d m) ∧ diffD (.subAnDm a m) m (s.a a) ∧
    diffA (.subAnAm a b) b (s.a a) ∧ diffD (.subImm16Dn imm16 n) n (imm16.signExtend 24) ∧
    diffD (.subImm24Dn imm24 n) n imm24 ∧ diffA (.subImm16An imm16 a) a (imm16.signExtend 24) ∧
    diffA (.subImm24An imm24 a) a imm24

/-- CMP, all nine forms: the flags of destination minus source, and no register changes; CMP imm16,An zero-extends
(R207 to R215). -/
def Obligations.CompareForms : Prop :=
  ∀ (s : State) (n m : DReg) (a b : AReg) (imm8 : Byte) (imm16 : Word) (imm24 : Ptr),
    let flagsOf := fun (i : Instr) (dest src : Ptr) =>
      SetsPswMdr i s (pswSetFlags s.psw (subFlags dest src false)) s.mdr
    flagsOf (.cmpDnDm n m) (s.d m) (s.d n) ∧ flagsOf (.cmpDmAn m a) (s.a a) (s.d m) ∧
    flagsOf (.cmpAnDm a m) (s.d m) (s.a a) ∧ flagsOf (.cmpAnAm a b) (s.a b) (s.a a) ∧
    flagsOf (.cmpImm8Dn imm8 n) (s.d n) (imm8.signExtend 24) ∧
    flagsOf (.cmpImm16Dn imm16 n) (s.d n) (imm16.signExtend 24) ∧ flagsOf (.cmpImm24Dn imm24 n) (s.d n) imm24 ∧
    flagsOf (.cmpImm16An imm16 a) (s.a a) (imm16.zeroExtend 24) ∧ flagsOf (.cmpImm24An imm24 a) (s.a a) imm24

/-- ADDC and SUBC take CF in and accumulate ZF; ADDNF adds and changes no flag (R193, R194, R203). -/
def Obligations.CarryFormsAndAddnf : Prop :=
  ∀ (s : State) (n m : DReg) (a : AReg) (imm8 : Byte),
    let c := s.psw.getLsbD 2
    let z := s.psw.getLsbD 0
    (let r := addResult (s.d m) (s.d n) c
     let f := addFlags (s.d m) (s.d n) c
     SetsD (.addcDnDm n m) s m r (pswSetFlags s.psw { f with zf := z && decide (r.extractLsb' 0 16 = 0) })) ∧
    (let r := subResult (s.d m) (s.d n) c
     let f := subFlags (s.d m) (s.d n) c
     SetsD (.subcDnDm n m) s m r (pswSetFlags s.psw { f with zf := z && decide (r.extractLsb' 0 16 = 0) })) ∧
    SetsA (.addnfImm8An imm8 a) s a (s.a a + imm8.signExtend 24) s.psw

/-- 32-bit arithmetic in two instructions (R217): ADD of the low words, then ADDC of the high words, give the 32-bit sum in
the low words, CF its carry, VF its signed overflow, NF its sign, ZF its zero test; SUB, then SUBC, the difference. -/
def Obligations.TwoWordAddAndSubtract : Prop :=
  ∀ (s : State) (nl ml nh mh : DReg), nh ≠ ml → mh ≠ ml →
    let w := fun (t : State) (h l : DReg) => ((t.d h).extractLsb' 0 16 ++ (t.d l).extractLsb' 0 16 : BitVec 32)
    (∃ t u, exec (.addDnDm nl ml) s = .next t ∧ exec (.addcDnDm nh mh) t = .next u ∧
      w u mh ml = w s mh ml + w s nh nl ∧
      (u.psw.getLsbD 2 = true ↔ 2 ^ 32 ≤ (w s mh ml).toNat + (w s nh nl).toNat) ∧
      (u.psw.getLsbD 3 = true ↔ (w s mh ml).toInt + (w s nh nl).toInt < -2 ^ 31 ∨
        2 ^ 31 ≤ (w s mh ml).toInt + (w s nh nl).toInt) ∧
      (u.psw.getLsbD 1 = true ↔ (w u mh ml).toInt < 0) ∧ (u.psw.getLsbD 0 = true ↔ w u mh ml = 0)) ∧
    (∃ t u, exec (.subDnDm nl ml) s = .next t ∧ exec (.subcDnDm nh mh) t = .next u ∧
      w u mh ml = w s mh ml - w s nh nl ∧
      (u.psw.getLsbD 2 = true ↔ (w s mh ml).toNat < (w s nh nl).toNat) ∧
      (u.psw.getLsbD 3 = true ↔ (w s mh ml).toInt - (w s nh nl).toInt < -2 ^ 31 ∨
        2 ^ 31 ≤ (w s mh ml).toInt - (w s nh nl).toInt) ∧
      (u.psw.getLsbD 1 = true ↔ (w u mh ml).toInt < 0) ∧ (u.psw.getLsbD 0 = true ↔ w u mh ml = 0))

/-- MUL and MULU: the 32-bit product's upper 16 bits in MDR, its low 24 in Dm, VF 0, NF bit 31, ZF of all 32 bits; VX, CX,
NX, ZX and CF may be anything (R204, R205). -/
def Obligations.MultiplyForms : Prop :=
  ∀ (s : State) (n m : DReg),
    let product := fun (i : Instr) (p : Int) (neg : Prop) =>
      ∃ (t : State) (f : ResultFlags), exec i s = .next t ∧ ((t.d m).toNat : Int) = p % 2 ^ 24 ∧
        (t.mdr.toNat : Int) = p / 2 ^ 16 % 2 ^ 16 ∧ t.psw = pswSetFlags s.psw f ∧ f.vf = false ∧
        (f.nf = true ↔ neg) ∧ (f.zf = true ↔ p = 0) ∧ t.pc = s.nextPc 2 ∧ KeepsRegs s t [m] [] ∧
        KeepsMem s t [] ∧ KeepsPlatform s t
    let lo := fun v : Ptr => v.extractLsb' 0 16
    (let p := (lo (s.d m)).toInt * (lo (s.d n)).toInt
     product (.mulDnDm n m) p (p < 0)) ∧
    (let p : Int := ((lo (s.d m)).toNat * (lo (s.d n)).toNat : Nat)
     product (.muluDnDm n m) p (2 ^ 31 ≤ p))

/-- DIVU where the quotient fits: quotient in Dm, remainder in MDR, VF 0, NX 0, ZX and ZF of the quotient, NF its bit 15;
VX, CX and CF may be anything (R206). That the quotient fits exactly when it is at most 0xFFFF is the spec's decision D18
(log 24). -/
def Obligations.DivideThatFits : Prop :=
  ∀ (s : State) (n m : DReg),
    let dvd := s.mdr.toNat * 2 ^ 16 + ((s.d m).extractLsb' 0 16).toNat
    let dvs := ((s.d n).extractLsb' 0 16).toNat
    dvs ≠ 0 → dvd / dvs ≤ 0xFFFF →
      ∃ (t : State) (f : ResultFlags), exec (.divuDnDm n m) s = .next t ∧ (t.d m).toNat = dvd / dvs ∧
        t.mdr.toNat = dvd % dvs ∧ t.psw = pswSetFlags s.psw f ∧ f.vf = false ∧ f.nx = false ∧
        (f.zx = true ↔ dvd / dvs = 0) ∧ (f.zf = true ↔ dvd / dvs = 0) ∧ (f.nf = true ↔ 2 ^ 15 ≤ dvd / dvs) ∧
        t.pc = s.nextPc 2 ∧ KeepsRegs s t [m] [] ∧ KeepsMem s t [] ∧ KeepsPlatform s t

/-- DIVU by zero or with a quotient above 16 bits raises nothing: VF is 1, everything but Dm, MDR and the flags is as
before (R206; the numeric overflow test is the spec's decision D18, log 24). -/
def Obligations.DivideOverflows : Prop :=
  ∀ (s : State) (n m : DReg),
    let dvs := ((s.d n).extractLsb' 0 16).toNat
    dvs = 0 ∨ dvs ≤ s.mdr.toNat →
      ∃ (t : State) (f : ResultFlags), exec (.divuDnDm n m) s = .next t ∧ t.psw = pswSetFlags s.psw f ∧
        f.vf = true ∧ t.pc = s.nextPc 2 ∧ KeepsRegs s t [m] [] ∧ KeepsMem s t [] ∧ KeepsPlatform s t

/-! Logic and bits -/

/-- AND, OR, XOR, NOT on a data register: the low word is computed, bits 23..16 stay, VF and CF are 0, NF and ZF are of
the low word, the extended flags stay (R230 to R233, R235 to R237, R239 to R241). -/
def Obligations.LogicForms : Prop :=
  ∀ (s : State) (n m : DReg) (imm8 : Byte) (imm16 : Word),
    let lo := fun r : DReg => (s.d r).extractLsb' 0 16
    let z8 := imm8.zeroExtend 16
    let sets := fun (i : Instr) (r : DReg) (w : Word) =>
      SetsD i s r ((s.d r).extractLsb' 16 8 ++ w) (pswSetLowFlags s.psw false false (w.getLsbD 15) (decide (w = 0)))
    sets (.andDnDm n m) m (lo m &&& lo n) ∧ sets (.andImm8Dn imm8 n) n (lo n &&& z8) ∧
    sets (.andImm16Dn imm16 n) n (lo n &&& imm16) ∧
    sets (.orDnDm n m) m (lo m ||| lo n) ∧ sets (.orImm8Dn imm8 n) n (lo n ||| z8) ∧
    sets (.orImm16Dn imm16 n) n (lo n ||| imm16) ∧
    sets (.xorDnDm n m) m (lo m ^^^ lo n) ∧ sets (.xorImm16Dn imm16 n) n (lo n ^^^ imm16) ∧
    sets (.notDn n) n (~~~lo n)

/-- ASR, LSR, ROR, ROL: one place on the low word, as numbers; CF is the bit shifted out, VF is 0 (R242 to R245). -/
def Obligations.ShiftForms : Prop :=
  ∀ (s : State) (n : DReg),
    let w := (s.d n).extractLsb' 0 16
    let c := (s.psw.getLsbD 2).toNat
    let sets := fun (i : Instr) (r : Word) (cf : Bool) =>
      SetsD i s n ((s.d n).extractLsb' 16 8 ++ r) (pswSetLowFlags s.psw false cf (r.getLsbD 15) (decide (r = 0)))
    sets (.asrDn n) (BitVec.ofInt 16 (w.toInt / 2)) (decide (w.toNat % 2 = 1)) ∧
    sets (.lsrDn n) (BitVec.ofNat 16 (w.toNat / 2)) (decide (w.toNat % 2 = 1)) ∧
    sets (.rorDn n) (BitVec.ofNat 16 (c * 2 ^ 15 + w.toNat / 2)) (decide (w.toNat % 2 = 1)) ∧
    sets (.rolDn n) (BitVec.ofNat 16 (w.toNat * 2 + c)) (decide (2 ^ 15 ≤ w.toNat))

/-- AND and OR imm16,PSW act on all 16 bits, the old value read with free bits 15 and 14 (R234, R238, R23; the free
values are the spec's decision D2, log 13). -/
def Obligations.PswAndOrImmediates : Prop :=
  ∀ (s : State) (imm : Word),
    (∃ b15 b14 : Bool, SetsPswMdr (.andImm16Psw imm) s
      ((BitVec.ofBool b15 ++ BitVec.ofBool b14 ++ s.psw.extractLsb' 0 14 : Word) &&& imm) s.mdr) ∧
    (∃ b15 b14 : Bool, SetsPswMdr (.orImm16Psw imm) s
      ((BitVec.ofBool b15 ++ BitVec.ofBool b14 ++ s.psw.extractLsb' 0 14 : Word) ||| imm) s.mdr)

/-- BTST: VF and CF are 0, NF bit 15 and ZF the zero test of the masked low word (NF is 0 in the imm8 form); no register
changes (R260, R261). -/
def Obligations.BtstForms : Prop :=
  ∀ (s : State) (n : DReg) (imm8 : Byte) (imm16 : Word),
    SetsPswMdr (.btstImm8Dn imm8 n) s
      (pswSetLowFlags s.psw false false false (decide ((s.d n).extractLsb' 0 8 &&& imm8 = 0))) s.mdr ∧
    SetsPswMdr (.btstImm16Dn imm16 n) s
      (pswSetLowFlags s.psw false false ((s.d n).getLsbD 15 && imm16.getLsbD 15)
        (decide ((s.d n).extractLsb' 0 16 &&& imm16 = 0))) s.mdr

/-- BSET and BCLR: ZF tests the old byte against the mask, then the byte is set or cleared; VF, CF and NF are 0, nothing
else changes (R262, R263). What goes out where the byte is a device's: DeviceStoresGoOut. -/
def Obligations.BitSetAndClear : Prop :=
  ∀ (s : State) (m : DReg) (n : AReg), s.Inv → Storable s (s.eaInd n) 1 →
    let mask := (s.d m).extractLsb' 0 8
    let old := s.peek8 (s.eaInd n)
    let psw := pswSetLowFlags s.psw false false false (decide (old &&& mask = 0))
    StoresAt (.bsetDmInd m n) s (s.eaInd n) [old ||| mask] psw ∧
    StoresAt (.bclrDmInd m n) s (s.eaInd n) [old &&& ~~~mask] psw

/-! Control flow -/

/-- The fourteen branches on the 16-bit flags: the condition, the target pc + L + d8, the next instruction otherwise; only
pc changes (R270, R271, R273 to R286). -/
def WordBranchesFollowFlags : Prop :=
  ∀ (s : State) (d : Byte),
    let z := s.psw.getLsbD 0
    let n := s.psw.getLsbD 1
    let c := s.psw.getLsbD 2
    let v := s.psw.getLsbD 3
    let br := fun (i : Instr) (len : Nat) (taken : Bool) =>
      JumpsTo i s (if taken then relTarget s len d.toInt else relTarget s len 0)
    br (.beq d) 2 z ∧ br (.bne d) 2 (!z) ∧ br (.blt d) 2 (v != n) ∧ br (.ble d) 2 (v != n || z) ∧
    br (.bge d) 2 (v == n) ∧ br (.bgt d) 2 (v == n && !z) ∧ br (.bcs d) 2 c ∧ br (.bls d) 2 (c || z) ∧
    br (.bcc d) 2 (!c) ∧ br (.bhi d) 2 (!c && !z) ∧ br (.bvc d) 3 (!v) ∧ br (.bvs d) 3 v ∧ br (.bnc d) 3 (!n) ∧
    br (.bns d) 3 n

/-- The fourteen branches on the extended flags (R270, R271, R288 to R301). -/
def ExtendedBranchesFollowFlags : Prop :=
  ∀ (s : State) (d : Byte),
    let z := s.psw.getLsbD 4
    let n := s.psw.getLsbD 5
    let c := s.psw.getLsbD 6
    let v := s.psw.getLsbD 7
    let br := fun (i : Instr) (taken : Bool) =>
      JumpsTo i s (if taken then relTarget s 3 d.toInt else relTarget s 3 0)
    br (.beqx d) z ∧ br (.bnex d) (!z) ∧ br (.bltx d) (v != n) ∧ br (.blex d) (v != n || z) ∧
    br (.bgex d) (v == n) ∧ br (.bgtx d) (v == n && !z) ∧ br (.bcsx d) c ∧ br (.blsx d) (c || z) ∧
    br (.bccx d) (!c) ∧ br (.bhix d) (!c && !z) ∧ br (.bvcx d) (!v) ∧ br (.bvsx d) v ∧ br (.bncx d) (!n) ∧
    br (.bnsx d) n

/-- What the ten comparison branches do, run at `t`, in terms of how the operands compare: taken exactly when the
comparison holds. -/
def BranchesCompare (t : State) (d : Byte) (i : Instr) (len : Nat) (cmp : Prop) : Prop :=
  (cmp → JumpsTo i t (relTarget t len d.toInt)) ∧ (¬cmp → JumpsTo i t (relTarget t len 0))

/-- The last column of R270: every form of CMP completes, and after it each of the twenty comparison branches is taken exactly
when the source compares so with the destination, signed or unsigned, in 16 bits and in 24. -/
def BranchesAfterCompare : Prop :=
  ∀ (s : State) (i : Instr) (src dest : Ptr) (d : Byte), cmpOperands s i = some (src, dest) → ∃ t, exec i s = .next t ∧
    let s16 := src.extractLsb' 0 16
    let d16 := dest.extractLsb' 0 16
    let br := BranchesCompare t d
    (br (.beq d) 2 (s16 = d16) ∧ br (.bne d) 2 (s16 ≠ d16) ∧
      br (.blt d) 2 (s16.toInt > d16.toInt) ∧ br (.ble d) 2 (s16.toInt ≥ d16.toInt) ∧
      br (.bge d) 2 (s16.toInt ≤ d16.toInt) ∧ br (.bgt d) 2 (s16.toInt < d16.toInt) ∧
      br (.bcs d) 2 (s16.toNat > d16.toNat) ∧ br (.bls d) 2 (s16.toNat ≥ d16.toNat) ∧
      br (.bcc d) 2 (s16.toNat ≤ d16.toNat) ∧ br (.bhi d) 2 (s16.toNat < d16.toNat)) ∧
    (br (.beqx d) 3 (src = dest) ∧ br (.bnex d) 3 (src ≠ dest) ∧
      br (.bltx d) 3 (src.toInt > dest.toInt) ∧ br (.blex d) 3 (src.toInt ≥ dest.toInt) ∧
      br (.bgex d) 3 (src.toInt ≤ dest.toInt) ∧ br (.bgtx d) 3 (src.toInt < dest.toInt) ∧
      br (.bcsx d) 3 (src.toNat > dest.toNat) ∧ br (.blsx d) 3 (src.toNat ≥ dest.toNat) ∧
      br (.bccx d) 3 (src.toNat ≤ dest.toNat) ∧ br (.bhix d) 3 (src.toNat < dest.toNat))

/-- The table of R270, whole: the conditions on the 16-bit flags, those on the extended flags, and the comparison each
branch makes after CMP. -/
def Obligations.BranchConditionTable : Prop :=
  WordBranchesFollowFlags ∧ ExtendedBranchesFollowFlags ∧ BranchesAfterCompare

/-- BRA, JMP and NOP: only pc changes (R271, R287, R302 to R304, R309). -/
def Obligations.JumpsAndNop : Prop :=
  ∀ (s : State) (d8 : Byte) (d16 : Word) (d24 : Ptr) (n : AReg),
    JumpsTo (.bra d8) s (relTarget s 2 d8.toInt) ∧
    JumpsTo (.jmpLabel16 d16) s (relTarget s 3 d16.toInt) ∧
    JumpsTo (.jmpLabel24 d24) s (relTarget s 5 d24.toInt) ∧
    JumpsTo (.jmpInd n) s (s.a n) ∧
    JumpsTo .nop s (relTarget s 1 0)

/-- JSR: A3 is 4 lower, the three bytes of the return address are at the new A3, the byte above them and all else stay
(R305 to R308). That the low byte of the address lies lowest is the spec's decision D20 (log 19), that the byte above the
three stays D14 (log 21), that JSR (A3) goes to the decremented A3 D27 (log 22). What goes out where a byte is a device's:
DeviceStoresGoOut. -/
def Obligations.CallsPushReturnAddress : Prop :=
  ∀ (s : State) (d16 : Word) (d24 : Ptr) (n : AReg), s.Inv → Storable s (s.a3 - 4) 3 →
    CallsTo (.jsrLabel16 d16) s (relTarget s 3 d16.toInt) ∧
    CallsTo (.jsrLabel24 d24) s (relTarget s 5 d24.toInt) ∧
    CallsTo (.jsrInd n) s (if n = .a3 then s.a3 - 4 else s.a n)

/-- RTS: pc is the three bytes at A3, A3 is 4 higher, nothing else changes (R310). -/
def Obligations.RtsPopsReturnAddress : Prop :=
  ∀ s : State, Loadable s s.a3 3 →
    ∃ t, exec .rts s = .next t ∧ t.pc = s.peek24 s.a3 ∧ t.a3 = s.a3 + 4 ∧ t.psw = s.psw ∧ t.mdr = s.mdr ∧
      KeepsRegs s t [] [.a3] ∧ KeepsMem s t [] ∧ KeepsPlatform s t

/-- A call followed by RTS comes back: pc is past the JSR, and the registers, PSW and MDR are those before the call
(R305 to R308, R310). That memory outside exactly three bytes is as before, the byte at A3-1 included, is the spec's
decision D14 (R44, R308; log 21). -/
def Obligations.CallThenRtsReturns : Prop :=
  ∀ (s t : State) (i : Instr), s.Inv → AllRam s (s.a3 - 4) 3 →
    (∃ d, i = .jsrLabel16 d) ∨ (∃ d, i = .jsrLabel24 d) ∨ (∃ n, i = .jsrInd n) → exec i s = .next t →
    ∃ u, exec .rts t = .next u ∧ u.pc = s.nextPc i.length ∧ u.psw = s.psw ∧ u.mdr = s.mdr ∧
      KeepsRegs s u [] [] ∧ KeepsMem s u (bytesFrom (s.a3 - 4) 3)

/-- RTI: all 16 bits of PSW from the word at A3, pc from the three bytes at A3+2, A3 6 higher, nothing else changes
(R312, R337). -/
def Obligations.RtiRestoresPswAndPc : Prop :=
  ∀ s : State, Loadable s s.a3 2 → Loadable s (s.a3 + 2) 3 →
    ∃ t, exec .rti s = .next t ∧ t.psw = s.peek16 s.a3 ∧ t.pc = (s.afterRead s.a3 2).peek24 (s.a3 + 2) ∧
      t.a3 = s.a3 + 6 ∧ t.mdr = s.mdr ∧ KeepsRegs s t [] [.a3] ∧ KeepsMem s t [] ∧ KeepsPlatform s t

/-! Interrupts and reset -/

/-- A maskable request of level L that is accepted, which takes IE = 1 and the platform's IRQ_ACCEPT, is entered in place of
the next instruction: the frame, A3 - 6, IE 0, IM = L, the other PSW bits as before, pc at the entry address (R333, R334,
R336: the spec's decisions D5, D6; logs 16, 17). IM stands at the platform's PSW_IM_POS, by default bits 10..8 (D1; log
14). That IM or a table sees bits 15 and 14 as stored, where it covers them, is the model's choice (R23; log 16). -/
def Obligations.MaskableEntry : Prop :=
  ∀ (s : State) (l : Fin 7) (es : List BoundaryEvent), s.Inv → ImFits s.platform → s.events = .maskable l :: es →
    IrqAccepted s l → Storable s (s.a3 - 6) 2 → Storable s (s.a3 - 4) 3 →
    ∃ (t : State) (b15 b14 : Bool), step s = .next t ∧ t.a3 = s.a3 - 6 ∧
      HoldsBytes s t (s.a3 - 6)
        (le16 (BitVec.ofBool b15 ++ BitVec.ofBool b14 ++ s.psw.extractLsb' 0 14) ++ le24 s.pc) ∧
      t.psw.getLsbD 11 = false ∧ (t.psw.extractLsb' s.platform.pswImPos 3).toNat = l.val ∧
      (∀ k, k ≠ 11 → k < s.platform.pswImPos ∨ s.platform.pswImPos + 3 ≤ k → t.psw.getLsbD k = s.psw.getLsbD k) ∧
      t.pc = irqEntryOf s.platform.irqEntry l ∧ t.mdr = s.mdr ∧ KeepsRegs s t [] [.a3] ∧
      KeepsMem s t (bytesFrom (s.a3 - 6) 5) ∧ t.platform = s.platform ∧ t.events = es

/-- A non-maskable request is entered whatever IE and IM are; IM stays (R336, R342: the spec's decisions D5, D6; log
17). -/
def Obligations.NonMaskableEntry : Prop :=
  ∀ (s : State) (es : List BoundaryEvent), s.Inv → s.events = .nonMaskable :: es →
    Storable s (s.a3 - 6) 2 → Storable s (s.a3 - 4) 3 →
    ∃ (t : State) (b15 b14 : Bool), step s = .next t ∧ t.a3 = s.a3 - 6 ∧
      HoldsBytes s t (s.a3 - 6)
        (le16 (BitVec.ofBool b15 ++ BitVec.ofBool b14 ++ s.psw.extractLsb' 0 14) ++ le24 s.pc) ∧
      t.psw.getLsbD 11 = false ∧ t.psw.extractLsb' 0 11 = s.psw.extractLsb' 0 11 ∧
      t.psw.extractLsb' 12 4 = s.psw.extractLsb' 12 4 ∧
      t.pc = s.platform.irqEntry.nmi ∧ t.mdr = s.mdr ∧ KeepsRegs s t [] [.a3] ∧
      KeepsMem s t (bytesFrom (s.a3 - 6) 5) ∧ t.platform = s.platform ∧ t.events = es

/-- A maskable request is not accepted while IE is 0 (R21), whatever IRQ_ACCEPT is, nor while the platform's IRQ_ACCEPT does
not admit it, by default at a level not below IM (R333: the spec's decision D5, log 16; IM at PSW_IM_POS, by default bits
10..8, D1, log 14): the step is the one with nothing presented (that an unaccepted request leaves the list is the model's
choice, log 15, and that IRQ_ACCEPT sees bits 15 and 14 as stored, where it covers them, R23, log 16). -/
def Obligations.MaskedRequestIsNotEntered : Prop :=
  ∀ (s : State) (l : Fin 7) (es : List BoundaryEvent), s.events = .maskable l :: es →
    s.psw.getLsbD 11 = false ∨ ¬IrqAccepted s l → step s = step { s with events := .quiet :: es }

/-- Interrupt entry, then RTI, comes back: pc and A3 are those of the interrupted program, and so are PSW bits 13..0, every
register and MDR (R312, R336, R337: acceptance and entry are the spec's decisions D5, D6; logs 16, 17). That memory
outside five bytes is as before, the byte at A3-1 included, is D14 (R44; log 21). -/
def Obligations.EntryThenRtiReturns : Prop :=
  ∀ (s t : State) (e : BoundaryEvent) (es : List BoundaryEvent), s.Inv → AllRam s (s.a3 - 6) 5 →
    s.events = e :: es → IsEntered s e → step s = .next t →
    ∃ u, exec .rti t = .next u ∧ u.pc = s.pc ∧ u.psw.extractLsb' 0 14 = s.psw.extractLsb' 0 14 ∧ u.mdr = s.mdr ∧
      KeepsRegs s u [] [] ∧ KeepsMem s u (bytesFrom (s.a3 - 6) 5)

/-- A reset at an instruction boundary: PSW is 0 and pc is RESET_PC; no memory byte changes, nothing is saved (R344, R360,
R361; that memory stays is the model's choice, log 18). -/
def Obligations.ResetEventRestarts : Prop :=
  ∀ (s : State) (es : List BoundaryEvent), s.events = .reset :: es →
    ∃ t, step s = .next t ∧ t.psw = 0 ∧ t.pc = s.platform.resetPc ∧ t.mem = s.mem ∧ t.platform = s.platform ∧
      t.events = es

/-- After a reset PSW is 0x0000: every flag, IM, IE, S1, S0 and bits 15 and 14 are 0, wherever IM, S1 and S0 stand (R25). -/
def Obligations.PswIsZeroAfterReset : Prop :=
  State.reset.psw = 0x0000 ∧ pswZF State.reset.psw = false ∧ pswNF State.reset.psw = false ∧
    pswCF State.reset.psw = false ∧ pswVF State.reset.psw = false ∧ pswZX State.reset.psw = false ∧
    pswNX State.reset.psw = false ∧ pswCX State.reset.psw = false ∧ pswVX State.reset.psw = false ∧
    pswIE State.reset.psw = false ∧
    (∀ pos, pswIM pos State.reset.psw = 0 ∧ pswS0 pos State.reset.psw = false ∧ pswS1 pos State.reset.psw = false) ∧
    State.reset.psw.getLsbD 14 = false ∧ State.reset.psw.getLsbD 15 = false

/-! Invariants and whole-machine rules -/

/-- The state after reset meets the invariant (R40; the canonical form is the model's, log 3). -/
def Obligations.ResetMeetsInvariant : Prop := State.reset.Inv

/-- Every step keeps the invariant: memory stays in canonical form with addresses below 2^24 only (R40; the canonical form
is the model's, log 3). -/
def Obligations.StepKeepsInvariant : Prop :=
  ∀ s t : State, s.Inv → step s = .next t → t.Inv

/-- No step, interrupt entry and reset included, changes a byte of CODE_REGION, nor a byte that is not RAM; and no step
changes the platform (R52, R41, R370). For CODE_REGION this is the spec's decision D8 (log 7), for what is not RAM the
platform's MEM_MAP (D11; log 11), for a reset the model's choice (log 18). -/
def Obligations.CodeAndRomNeverChange : Prop :=
  ∀ s t : State, step s = .next t →
    (∀ x, s.isCode x = true ∨ s.kindAt x ≠ .ram → t.byteAt x = s.byteAt x) ∧ t.platform = s.platform

/-- MDR is written by MUL, MULU, DIVU, EXT and MOV Dn,MDR only, and read by DIVU and MOV MDR,Dn only: any other
instruction does the same whatever MDR holds (R17). -/
def Obligations.MdrIsTouchedByFiveAndTwo : Prop :=
  ∀ (i : Instr) (s : State),
    (writesMdr i = false → ∀ t, exec i s = .next t → t.mdr = s.mdr) ∧
    (readsMdr i = false → writesMdr i = false → ∀ v : Word, exec i (s.setMdr v) =
      match exec i s with
      | .next t => .next (t.setMdr v)
      | .fault f => .fault f
      | .refused r => .refused r) ∧
    (readsMdr i = false → writesMdr i = true → ∀ v : Word, exec i (s.setMdr v) = exec i s)

/-- Which part of the PSW each group of instructions writes: the whole PSW by four forms; bits 7..0 only by the
arithmetic; bits 3..0 only by logic, shifts and bit tests; nothing by every other instruction (R22, R24). -/
def Obligations.PswWritersByGroup : Prop :=
  ∀ (i : Instr) (s t : State), exec i s = .next t → writesWholePsw i = false →
    t.psw.extractLsb' 8 8 = s.psw.extractLsb' 8 8 ∧
    (writesEightFlags i = false → t.psw.extractLsb' 4 12 = s.psw.extractLsb' 4 12) ∧
    (writesEightFlags i = false → writesFourFlags i = false → t.psw = s.psw)

/-- Memory and the devices are written by the stores, BSET, BCLR and the calls only (R44, R50, R182, R230). -/
def Obligations.OnlyStoresWriteMemory : Prop :=
  ∀ (i : Instr) (s t : State), exec i s = .next t → storesToMemory i = false → KeepsMem s t []

/-! Stops -/

/-- A 16-bit or 24-bit access at an odd address stops, the stack accesses of JSR, RTS, RTI and interrupt entry too (R45,
R336: the spec's decision D3; log 5; that entry pushes at A3-6 is D6, log 17). An instruction whose accesses are of one
byte (MOVB, MOVBU, BSET, BCLR), or that makes none, never stops so, odd addresses included (R46). -/
def Obligations.OddAccessesStop : Prop :=
  (∀ (s : State) (n m : AReg) (r x : DReg) (d8 : Byte) (d16 : Word) (d24 : Ptr),
    let stops := fun (ea : Ptr) (i : Instr) =>
      ea.toNat % 2 = 1 → exec i s = .fault (.misalignedAccess ea.toNat)
    (stops (s.eaInd n) (.movIndDm n r) ∧ stops (s.eaD8 d8 n) (.movD8Dm d8 n r) ∧
      stops (s.eaD16 d16 n) (.movD16Dm d16 n r) ∧ stops (s.eaD24 d24 n) (.movD24Dm d24 n r) ∧
      stops (s.eaIdx x n) (.movIdxDm x n r) ∧ stops (eaAbs16 d16) (.movAbs16Dn d16 r) ∧
      stops (eaAbs24 d24) (.movAbs24Dn d24 r)) ∧
    (stops (s.eaInd n) (.movDmInd r n) ∧ stops (s.eaD8 d8 n) (.movDmD8 r d8 n) ∧
      stops (s.eaD16 d16 n) (.movDmD16 r d16 n) ∧ stops (s.eaD24 d24 n) (.movDmD24 r d24 n) ∧
      stops (s.eaIdx x n) (.movDmIdx r x n) ∧ stops (eaAbs16 d16) (.movDnAbs16 r d16) ∧
      stops (eaAbs24 d24) (.movDnAbs24 r d24)) ∧
    (stops (s.eaInd n) (.movIndAm n m) ∧ stops (s.eaD8 d8 n) (.movD8Am d8 n m) ∧
      stops (s.eaD16 d16 n) (.movD16Am d16 n m) ∧ stops (s.eaD24 d24 n) (.movD24Am d24 n m) ∧
      stops (eaAbs16 d16) (.movAbs16An d16 m) ∧ stops (eaAbs24 d24) (.movAbs24An d24 m) ∧
      stops (s.eaD8 d8 n) (.movxD8Dm d8 n r) ∧ stops (s.eaD16 d16 n) (.movxD16Dm d16 n r) ∧
      stops (s.eaD24 d24 n) (.movxD24Dm d24 n r)) ∧
    (stops (s.eaInd n) (.movAmInd m n) ∧ stops (s.eaD8 d8 n) (.movAmD8 m d8 n) ∧
      stops (s.eaD16 d16 n) (.movAmD16 m d16 n) ∧ stops (s.eaD24 d24 n) (.movAmD24 m d24 n) ∧
      stops (eaAbs16 d16) (.movAnAbs16 m d16) ∧ stops (eaAbs24 d24) (.movAnAbs24 m d24) ∧
      stops (s.eaD8 d8 n) (.movxDmD8 r d8 n) ∧ stops (s.eaD16 d16 n) (.movxDmD16 r d16 n) ∧
      stops (s.eaD24 d24 n) (.movxDmD24 r d24 n)) ∧
    (stops (s.a3 - 4) (.jsrLabel16 d16) ∧ stops (s.a3 - 4) (.jsrLabel24 d24) ∧ stops (s.a3 - 4) (.jsrInd n) ∧
      stops s.a3 .rts ∧ stops s.a3 .rti)) ∧
  (∀ (s : State) (e : BoundaryEvent) (es : List BoundaryEvent), s.events = e :: es → IsEntered s e →
    s.a3.toNat % 2 = 1 → step s = .fault (.misalignedAccess (s.a3 - 6).toNat)) ∧
  ∀ (s : State) (i : Instr), (∀ ea n, loadOf s i = some (ea, n) → n = 1) →
    (∀ ea bytes, storeOf s i = some (ea, bytes) → bytes.length = 1) → ∀ a, exec i s ≠ .fault (.misalignedAccess a)

/-- Every form that stores, at the address of its own operand or at A3-4: an odd address, an unmapped byte, a byte of
CODE_REGION or of a ROM whose stores stop makes it stop, under the name of the first of these that applies. The two pushes
of interrupt entry, at A3-6 and A3-4, stop the step in the same way (R41, R45, R52, R331, R336: the spec's decisions D3,
D8, D11 and the platform's MEM_MAP; logs 5, 7, 9, 11; which of several reasons is named, log 29; the place of the
pushes D6, log 17). A store to a device, or to a ROM that ignores it, is none of these and does not stop. -/
def Obligations.ForbiddenStoresStop : Prop :=
  (∀ (s : State) (i : Instr), storesToMemory i = true →
    ∃ ea bytes, storeOf s i = some (ea, bytes) ∧ StopsAsStore s ea bytes.length (exec i s)) ∧
  ∀ (s : State) (e : BoundaryEvent) (es : List BoundaryEvent), s.events = e :: es → IsEntered s e →
    StopsAsStore s (s.a3 - 6) 2 (step s) ∧ (Storable s (s.a3 - 6) 2 → StopsAsStore s (s.a3 - 4) 3 (step s))

/-- Every form that loads, RTS and RTI among them, at the address of its own operand or of the stack: an odd address, else
an unmapped byte, makes it stop under that name; so does RTI's second load, at A3+2 (R41, R45, R331: the spec's decisions
D3, D11; logs 5, 9; which of several reasons is named, log 29). -/
def Obligations.ForbiddenLoadsStop : Prop :=
  (∀ (s : State) (i : Instr) (ea : Ptr) (n : Nat), loadOf s i = some (ea, n) → StopsAsLoad s ea n (exec i s)) ∧
  ∀ s : State, Loadable s s.a3 2 → StopsAsLoad s (s.a3 + 2) 3 (exec .rti s)

/-- What goes out to devices: an instruction that stores sends each byte of its store whose address is a device's, with that
address, and nothing else; interrupt entry the bytes of its two pushes in the same way (R41, R346, R349, R336). That a
16-bit or 24-bit store goes out byte by byte, lowest address first, is the model's choice (R51; log 33); so is the list
devOut, the latest byte first (log 10). That entry pushes PSW and pc in five bytes at A3-6 is the spec's decision D6,
inferred from RTI and in part PRESUMED (R336; log 17), that bits 15 and 14 of the pushed PSW are free D2 (R23; log 13),
which requests are entered D5 (R333; log 16). -/
def Obligations.DeviceStoresGoOut : Prop :=
  (∀ (s : State) (i : Instr) (ea : Ptr) (bytes : List Byte), storeOf s i = some (ea, bytes) →
    Storable s ea bytes.length →
    ∃ t, exec i s = .next t ∧ t.devOut = deviceBytes s ea bytes ++ s.devOut) ∧
  ∀ (s : State) (e : BoundaryEvent) (es : List BoundaryEvent), s.events = e :: es → IsEntered s e →
    Storable s (s.a3 - 6) 2 → Storable s (s.a3 - 4) 3 →
    ∃ (t : State) (b15 b14 : Bool), step s = .next t ∧
      t.devOut = deviceBytes s (s.a3 - 6)
        (le16 (BitVec.ofBool b15 ++ BitVec.ofBool b14 ++ s.psw.extractLsb' 0 14) ++ le24 s.pc) ++ s.devOut

/-- There is no synchronous exception and no other stop: an instruction completes exactly when its loads and its store may
be made, it is never refused, and so one that accesses no memory always completes, DIVU by zero among them (R330, R331; what
may not be accessed is the spec's decisions D3, D8, D11 and the platform's; logs 5, 7, 9, 11). -/
def Obligations.InstructionsStopOnlyAtAccesses : Prop :=
  ∀ (s : State) (i : Instr),
    ((∃ t, exec i s = .next t) ↔
      (∀ ea n, loadOf s i = some (ea, n) → Loadable s ea n) ∧ (i = .rti → Loadable s (s.a3 + 2) 3) ∧
      ∀ ea bytes, storeOf s i = some (ea, bytes) → Storable s ea bytes.length) ∧
    ∀ r, exec i s ≠ .refused r

end
end

