-- ==== Sys2Proof/Laws/State.lean ====
section
/-! SUPPORT. One lemma per field per update of State: no later proof unfolds a record update. -/

namespace Sys2Proof.Machine

/-! setD -/

@[simp] theorem State.setD_d_same (s : State) (q : DReg) (v : Ptr) : (s.setD q v).d q = v := by cases q <;> rfl
@[simp] theorem State.setD_d_ne (s : State) (q r : DReg) (v : Ptr) (h : r ≠ q) : (s.setD q v).d r = s.d r := by
  cases q <;> cases r <;> first | rfl | exact absurd rfl h
@[simp] theorem State.setD_a (s : State) (q : DReg) (v : Ptr) (r : AReg) : (s.setD q v).a r = s.a r := by
  cases q <;> cases r <;> rfl
@[simp] theorem State.setD_a0 (s : State) (q : DReg) (v : Ptr) : (s.setD q v).a0 = s.a0 := by cases q <;> rfl
@[simp] theorem State.setD_a1 (s : State) (q : DReg) (v : Ptr) : (s.setD q v).a1 = s.a1 := by cases q <;> rfl
@[simp] theorem State.setD_a2 (s : State) (q : DReg) (v : Ptr) : (s.setD q v).a2 = s.a2 := by cases q <;> rfl
@[simp] theorem State.setD_a3 (s : State) (q : DReg) (v : Ptr) : (s.setD q v).a3 = s.a3 := by cases q <;> rfl
@[simp] theorem State.setD_pc (s : State) (q : DReg) (v : Ptr) : (s.setD q v).pc = s.pc := by cases q <;> rfl
@[simp] theorem State.setD_mdr (s : State) (q : DReg) (v : Ptr) : (s.setD q v).mdr = s.mdr := by cases q <;> rfl
@[simp] theorem State.setD_psw (s : State) (q : DReg) (v : Ptr) : (s.setD q v).psw = s.psw := by cases q <;> rfl
@[simp] theorem State.setD_mem (s : State) (q : DReg) (v : Ptr) : (s.setD q v).mem = s.mem := by cases q <;> rfl
@[simp] theorem State.setD_platform (s : State) (q : DReg) (v : Ptr) : (s.setD q v).platform = s.platform := by cases q <;> rfl
@[simp] theorem State.setD_events (s : State) (q : DReg) (v : Ptr) : (s.setD q v).events = s.events := by cases q <;> rfl
@[simp] theorem State.setD_written (s : State) (q : DReg) (v : Ptr) : (s.setD q v).written = s.written := by cases q <;> rfl
@[simp] theorem State.setD_draws (s : State) (q : DReg) (v : Ptr) : (s.setD q v).draws = s.draws := by cases q <;> rfl
@[simp] theorem State.setD_devOut (s : State) (q : DReg) (v : Ptr) : (s.setD q v).devOut = s.devOut := by cases q <;> rfl
@[simp] theorem State.setD_byteAt (s : State) (q : DReg) (v : Ptr) (x : Nat) : (s.setD q v).byteAt x = s.byteAt x := by cases q <;> rfl
@[simp] theorem State.setD_kindAt (s : State) (q : DReg) (v : Ptr) (x : Nat) : (s.setD q v).kindAt x = s.kindAt x := by cases q <;> rfl
@[simp] theorem State.setD_isCode (s : State) (q : DReg) (v : Ptr) (x : Nat) : (s.setD q v).isCode x = s.isCode x := by cases q <;> rfl

/-! setA -/

@[simp] theorem State.setA_a_same (s : State) (q : AReg) (v : Ptr) : (s.setA q v).a q = v := by cases q <;> rfl
@[simp] theorem State.setA_a_ne (s : State) (q r : AReg) (v : Ptr) (h : r ≠ q) : (s.setA q v).a r = s.a r := by
  cases q <;> cases r <;> first | rfl | exact absurd rfl h
@[simp] theorem State.setA_d (s : State) (q : AReg) (v : Ptr) (r : DReg) : (s.setA q v).d r = s.d r := by
  cases q <;> cases r <;> rfl
@[simp] theorem State.setA_pc (s : State) (q : AReg) (v : Ptr) : (s.setA q v).pc = s.pc := by cases q <;> rfl
@[simp] theorem State.setA_mdr (s : State) (q : AReg) (v : Ptr) : (s.setA q v).mdr = s.mdr := by cases q <;> rfl
@[simp] theorem State.setA_psw (s : State) (q : AReg) (v : Ptr) : (s.setA q v).psw = s.psw := by cases q <;> rfl
@[simp] theorem State.setA_mem (s : State) (q : AReg) (v : Ptr) : (s.setA q v).mem = s.mem := by cases q <;> rfl
@[simp] theorem State.setA_platform (s : State) (q : AReg) (v : Ptr) : (s.setA q v).platform = s.platform := by cases q <;> rfl
@[simp] theorem State.setA_events (s : State) (q : AReg) (v : Ptr) : (s.setA q v).events = s.events := by cases q <;> rfl
@[simp] theorem State.setA_written (s : State) (q : AReg) (v : Ptr) : (s.setA q v).written = s.written := by cases q <;> rfl
@[simp] theorem State.setA_draws (s : State) (q : AReg) (v : Ptr) : (s.setA q v).draws = s.draws := by cases q <;> rfl
@[simp] theorem State.setA_devOut (s : State) (q : AReg) (v : Ptr) : (s.setA q v).devOut = s.devOut := by cases q <;> rfl
@[simp] theorem State.setA_byteAt (s : State) (q : AReg) (v : Ptr) (x : Nat) : (s.setA q v).byteAt x = s.byteAt x := by cases q <;> rfl
@[simp] theorem State.setA_kindAt (s : State) (q : AReg) (v : Ptr) (x : Nat) : (s.setA q v).kindAt x = s.kindAt x := by cases q <;> rfl
@[simp] theorem State.setA_isCode (s : State) (q : AReg) (v : Ptr) (x : Nat) : (s.setA q v).isCode x = s.isCode x := by cases q <;> rfl

/-! setMdr -/

@[simp] theorem State.setMdr_d (s : State) (v : Word) (r : DReg) : (s.setMdr v).d r = s.d r := by cases r <;> rfl
@[simp] theorem State.setMdr_a (s : State) (v : Word) (r : AReg) : (s.setMdr v).a r = s.a r := by cases r <;> rfl
@[simp] theorem State.setMdr_a0 (s : State) (v : Word) : (s.setMdr v).a0 = s.a0 := rfl
@[simp] theorem State.setMdr_a1 (s : State) (v : Word) : (s.setMdr v).a1 = s.a1 := rfl
@[simp] theorem State.setMdr_a2 (s : State) (v : Word) : (s.setMdr v).a2 = s.a2 := rfl
@[simp] theorem State.setMdr_a3 (s : State) (v : Word) : (s.setMdr v).a3 = s.a3 := rfl
@[simp] theorem State.setMdr_pc (s : State) (v : Word) : (s.setMdr v).pc = s.pc := rfl
@[simp] theorem State.setMdr_mdr (s : State) (v : Word) : (s.setMdr v).mdr = v := rfl
@[simp] theorem State.setMdr_psw (s : State) (v : Word) : (s.setMdr v).psw = s.psw := rfl
@[simp] theorem State.setMdr_mem (s : State) (v : Word) : (s.setMdr v).mem = s.mem := rfl
@[simp] theorem State.setMdr_platform (s : State) (v : Word) : (s.setMdr v).platform = s.platform := rfl
@[simp] theorem State.setMdr_events (s : State) (v : Word) : (s.setMdr v).events = s.events := rfl
@[simp] theorem State.setMdr_written (s : State) (v : Word) : (s.setMdr v).written = s.written := rfl
@[simp] theorem State.setMdr_draws (s : State) (v : Word) : (s.setMdr v).draws = s.draws := rfl
@[simp] theorem State.setMdr_devOut (s : State) (v : Word) : (s.setMdr v).devOut = s.devOut := rfl
@[simp] theorem State.setMdr_byteAt (s : State) (v : Word) (x : Nat) : (s.setMdr v).byteAt x = s.byteAt x := rfl
@[simp] theorem State.setMdr_kindAt (s : State) (v : Word) (x : Nat) : (s.setMdr v).kindAt x = s.kindAt x := rfl
@[simp] theorem State.setMdr_isCode (s : State) (v : Word) (x : Nat) : (s.setMdr v).isCode x = s.isCode x := rfl

/-! setPsw -/

@[simp] theorem State.setPsw_d (s : State) (v : Word) (r : DReg) : (s.setPsw v).d r = s.d r := by cases r <;> rfl
@[simp] theorem State.setPsw_a (s : State) (v : Word) (r : AReg) : (s.setPsw v).a r = s.a r := by cases r <;> rfl
@[simp] theorem State.setPsw_a0 (s : State) (v : Word) : (s.setPsw v).a0 = s.a0 := rfl
@[simp] theorem State.setPsw_a1 (s : State) (v : Word) : (s.setPsw v).a1 = s.a1 := rfl
@[simp] theorem State.setPsw_a2 (s : State) (v : Word) : (s.setPsw v).a2 = s.a2 := rfl
@[simp] theorem State.setPsw_a3 (s : State) (v : Word) : (s.setPsw v).a3 = s.a3 := rfl
@[simp] theorem State.setPsw_pc (s : State) (v : Word) : (s.setPsw v).pc = s.pc := rfl
@[simp] theorem State.setPsw_mdr (s : State) (v : Word) : (s.setPsw v).mdr = s.mdr := rfl
@[simp] theorem State.setPsw_psw (s : State) (v : Word) : (s.setPsw v).psw = v := rfl
@[simp] theorem State.setPsw_mem (s : State) (v : Word) : (s.setPsw v).mem = s.mem := rfl
@[simp] theorem State.setPsw_platform (s : State) (v : Word) : (s.setPsw v).platform = s.platform := rfl
@[simp] theorem State.setPsw_events (s : State) (v : Word) : (s.setPsw v).events = s.events := rfl
@[simp] theorem State.setPsw_written (s : State) (v : Word) : (s.setPsw v).written = s.written := rfl
@[simp] theorem State.setPsw_draws (s : State) (v : Word) : (s.setPsw v).draws = s.draws := rfl
@[simp] theorem State.setPsw_devOut (s : State) (v : Word) : (s.setPsw v).devOut = s.devOut := rfl
@[simp] theorem State.setPsw_byteAt (s : State) (v : Word) (x : Nat) : (s.setPsw v).byteAt x = s.byteAt x := rfl
@[simp] theorem State.setPsw_kindAt (s : State) (v : Word) (x : Nat) : (s.setPsw v).kindAt x = s.kindAt x := rfl
@[simp] theorem State.setPsw_isCode (s : State) (v : Word) (x : Nat) : (s.setPsw v).isCode x = s.isCode x := rfl

/-! setFlags -/

@[simp] theorem State.setFlags_d (s : State) (f : ResultFlags) (r : DReg) : (s.setFlags f).d r = s.d r := by cases r <;> rfl
@[simp] theorem State.setFlags_a (s : State) (f : ResultFlags) (r : AReg) : (s.setFlags f).a r = s.a r := by cases r <;> rfl
@[simp] theorem State.setFlags_a0 (s : State) (f : ResultFlags) : (s.setFlags f).a0 = s.a0 := rfl
@[simp] theorem State.setFlags_a1 (s : State) (f : ResultFlags) : (s.setFlags f).a1 = s.a1 := rfl
@[simp] theorem State.setFlags_a2 (s : State) (f : ResultFlags) : (s.setFlags f).a2 = s.a2 := rfl
@[simp] theorem State.setFlags_a3 (s : State) (f : ResultFlags) : (s.setFlags f).a3 = s.a3 := rfl
@[simp] theorem State.setFlags_pc (s : State) (f : ResultFlags) : (s.setFlags f).pc = s.pc := rfl
@[simp] theorem State.setFlags_mdr (s : State) (f : ResultFlags) : (s.setFlags f).mdr = s.mdr := rfl
@[simp] theorem State.setFlags_psw (s : State) (f : ResultFlags) : (s.setFlags f).psw = pswSetFlags s.psw f := rfl
@[simp] theorem State.setFlags_mem (s : State) (f : ResultFlags) : (s.setFlags f).mem = s.mem := rfl
@[simp] theorem State.setFlags_platform (s : State) (f : ResultFlags) : (s.setFlags f).platform = s.platform := rfl
@[simp] theorem State.setFlags_events (s : State) (f : ResultFlags) : (s.setFlags f).events = s.events := rfl
@[simp] theorem State.setFlags_written (s : State) (f : ResultFlags) : (s.setFlags f).written = s.written := rfl
@[simp] theorem State.setFlags_draws (s : State) (f : ResultFlags) : (s.setFlags f).draws = s.draws := rfl
@[simp] theorem State.setFlags_devOut (s : State) (f : ResultFlags) : (s.setFlags f).devOut = s.devOut := rfl
@[simp] theorem State.setFlags_byteAt (s : State) (f : ResultFlags) (x : Nat) : (s.setFlags f).byteAt x = s.byteAt x := rfl
@[simp] theorem State.setFlags_kindAt (s : State) (f : ResultFlags) (x : Nat) : (s.setFlags f).kindAt x = s.kindAt x := rfl
@[simp] theorem State.setFlags_isCode (s : State) (f : ResultFlags) (x : Nat) : (s.setFlags f).isCode x = s.isCode x := rfl

/-! setLowFlags -/

@[simp] theorem State.setLowFlags_d (s : State) (vf cf nf zf : Bool) (r : DReg) : (s.setLowFlags vf cf nf zf).d r = s.d r := by cases r <;> rfl
@[simp] theorem State.setLowFlags_a (s : State) (vf cf nf zf : Bool) (r : AReg) : (s.setLowFlags vf cf nf zf).a r = s.a r := by cases r <;> rfl
@[simp] theorem State.setLowFlags_a0 (s : State) (vf cf nf zf : Bool) : (s.setLowFlags vf cf nf zf).a0 = s.a0 := rfl
@[simp] theorem State.setLowFlags_a1 (s : State) (vf cf nf zf : Bool) : (s.setLowFlags vf cf nf zf).a1 = s.a1 := rfl
@[simp] theorem State.setLowFlags_a2 (s : State) (vf cf nf zf : Bool) : (s.setLowFlags vf cf nf zf).a2 = s.a2 := rfl
@[simp] theorem State.setLowFlags_a3 (s : State) (vf cf nf zf : Bool) : (s.setLowFlags vf cf nf zf).a3 = s.a3 := rfl
@[simp] theorem State.setLowFlags_pc (s : State) (vf cf nf zf : Bool) : (s.setLowFlags vf cf nf zf).pc = s.pc := rfl
@[simp] theorem State.setLowFlags_mdr (s : State) (vf cf nf zf : Bool) : (s.setLowFlags vf cf nf zf).mdr = s.mdr := rfl
@[simp] theorem State.setLowFlags_psw (s : State) (vf cf nf zf : Bool) : (s.setLowFlags vf cf nf zf).psw = pswSetLowFlags s.psw vf cf nf zf := rfl
@[simp] theorem State.setLowFlags_mem (s : State) (vf cf nf zf : Bool) : (s.setLowFlags vf cf nf zf).mem = s.mem := rfl
@[simp] theorem State.setLowFlags_platform (s : State) (vf cf nf zf : Bool) : (s.setLowFlags vf cf nf zf).platform = s.platform := rfl
@[simp] theorem State.setLowFlags_events (s : State) (vf cf nf zf : Bool) : (s.setLowFlags vf cf nf zf).events = s.events := rfl
@[simp] theorem State.setLowFlags_written (s : State) (vf cf nf zf : Bool) : (s.setLowFlags vf cf nf zf).written = s.written := rfl
@[simp] theorem State.setLowFlags_draws (s : State) (vf cf nf zf : Bool) : (s.setLowFlags vf cf nf zf).draws = s.draws := rfl
@[simp] theorem State.setLowFlags_devOut (s : State) (vf cf nf zf : Bool) : (s.setLowFlags vf cf nf zf).devOut = s.devOut := rfl
@[simp] theorem State.setLowFlags_byteAt (s : State) (vf cf nf zf : Bool) (x : Nat) : (s.setLowFlags vf cf nf zf).byteAt x = s.byteAt x := rfl
@[simp] theorem State.setLowFlags_kindAt (s : State) (vf cf nf zf : Bool) (x : Nat) : (s.setLowFlags vf cf nf zf).kindAt x = s.kindAt x := rfl
@[simp] theorem State.setLowFlags_isCode (s : State) (vf cf nf zf : Bool) (x : Nat) : (s.setLowFlags vf cf nf zf).isCode x = s.isCode x := rfl

/-! advance -/

@[simp] theorem State.advance_d (s : State) (len : Nat) (r : DReg) : (s.advance len).d r = s.d r := by cases r <;> rfl
@[simp] theorem State.advance_a (s : State) (len : Nat) (r : AReg) : (s.advance len).a r = s.a r := by cases r <;> rfl
@[simp] theorem State.advance_a0 (s : State) (len : Nat) : (s.advance len).a0 = s.a0 := rfl
@[simp] theorem State.advance_a1 (s : State) (len : Nat) : (s.advance len).a1 = s.a1 := rfl
@[simp] theorem State.advance_a2 (s : State) (len : Nat) : (s.advance len).a2 = s.a2 := rfl
@[simp] theorem State.advance_a3 (s : State) (len : Nat) : (s.advance len).a3 = s.a3 := rfl
@[simp] theorem State.advance_pc (s : State) (len : Nat) : (s.advance len).pc = s.nextPc len := rfl
@[simp] theorem State.advance_mdr (s : State) (len : Nat) : (s.advance len).mdr = s.mdr := rfl
@[simp] theorem State.advance_psw (s : State) (len : Nat) : (s.advance len).psw = s.psw := rfl
@[simp] theorem State.advance_mem (s : State) (len : Nat) : (s.advance len).mem = s.mem := rfl
@[simp] theorem State.advance_platform (s : State) (len : Nat) : (s.advance len).platform = s.platform := rfl
@[simp] theorem State.advance_events (s : State) (len : Nat) : (s.advance len).events = s.events := rfl
@[simp] theorem State.advance_written (s : State) (len : Nat) : (s.advance len).written = s.written := rfl
@[simp] theorem State.advance_draws (s : State) (len : Nat) : (s.advance len).draws = s.draws := rfl
@[simp] theorem State.advance_devOut (s : State) (len : Nat) : (s.advance len).devOut = s.devOut := rfl
@[simp] theorem State.advance_byteAt (s : State) (len : Nat) (x : Nat) : (s.advance len).byteAt x = s.byteAt x := rfl
@[simp] theorem State.advance_kindAt (s : State) (len : Nat) (x : Nat) : (s.advance len).kindAt x = s.kindAt x := rfl
@[simp] theorem State.advance_isCode (s : State) (len : Nat) (x : Nat) : (s.advance len).isCode x = s.isCode x := rfl

/-! jump -/

@[simp] theorem State.jump_d (s : State) (target : Ptr) (r : DReg) : (s.jump target).d r = s.d r := by cases r <;> rfl
@[simp] theorem State.jump_a (s : State) (target : Ptr) (r : AReg) : (s.jump target).a r = s.a r := by cases r <;> rfl
@[simp] theorem State.jump_a0 (s : State) (target : Ptr) : (s.jump target).a0 = s.a0 := rfl
@[simp] theorem State.jump_a1 (s : State) (target : Ptr) : (s.jump target).a1 = s.a1 := rfl
@[simp] theorem State.jump_a2 (s : State) (target : Ptr) : (s.jump target).a2 = s.a2 := rfl
@[simp] theorem State.jump_a3 (s : State) (target : Ptr) : (s.jump target).a3 = s.a3 := rfl
@[simp] theorem State.jump_pc (s : State) (target : Ptr) : (s.jump target).pc = target := rfl
@[simp] theorem State.jump_mdr (s : State) (target : Ptr) : (s.jump target).mdr = s.mdr := rfl
@[simp] theorem State.jump_psw (s : State) (target : Ptr) : (s.jump target).psw = s.psw := rfl
@[simp] theorem State.jump_mem (s : State) (target : Ptr) : (s.jump target).mem = s.mem := rfl
@[simp] theorem State.jump_platform (s : State) (target : Ptr) : (s.jump target).platform = s.platform := rfl
@[simp] theorem State.jump_events (s : State) (target : Ptr) : (s.jump target).events = s.events := rfl
@[simp] theorem State.jump_written (s : State) (target : Ptr) : (s.jump target).written = [] := rfl
@[simp] theorem State.jump_draws (s : State) (target : Ptr) : (s.jump target).draws = s.draws := rfl
@[simp] theorem State.jump_devOut (s : State) (target : Ptr) : (s.jump target).devOut = s.devOut := rfl
@[simp] theorem State.jump_byteAt (s : State) (target : Ptr) (x : Nat) : (s.jump target).byteAt x = s.byteAt x := rfl
@[simp] theorem State.jump_kindAt (s : State) (target : Ptr) (x : Nat) : (s.jump target).kindAt x = s.kindAt x := rfl
@[simp] theorem State.jump_isCode (s : State) (target : Ptr) (x : Nat) : (s.jump target).isCode x = s.isCode x := rfl

/-! consume -/

@[simp] theorem State.consume_d (s : State) (n : Nat) (r : DReg) : (s.consume n).d r = s.d r := by cases r <;> rfl
@[simp] theorem State.consume_a (s : State) (n : Nat) (r : AReg) : (s.consume n).a r = s.a r := by cases r <;> rfl
@[simp] theorem State.consume_a0 (s : State) (n : Nat) : (s.consume n).a0 = s.a0 := rfl
@[simp] theorem State.consume_a1 (s : State) (n : Nat) : (s.consume n).a1 = s.a1 := rfl
@[simp] theorem State.consume_a2 (s : State) (n : Nat) : (s.consume n).a2 = s.a2 := rfl
@[simp] theorem State.consume_a3 (s : State) (n : Nat) : (s.consume n).a3 = s.a3 := rfl
@[simp] theorem State.consume_pc (s : State) (n : Nat) : (s.consume n).pc = s.pc := rfl
@[simp] theorem State.consume_mdr (s : State) (n : Nat) : (s.consume n).mdr = s.mdr := rfl
@[simp] theorem State.consume_psw (s : State) (n : Nat) : (s.consume n).psw = s.psw := rfl
@[simp] theorem State.consume_mem (s : State) (n : Nat) : (s.consume n).mem = s.mem := rfl
@[simp] theorem State.consume_platform (s : State) (n : Nat) : (s.consume n).platform = s.platform := rfl
@[simp] theorem State.consume_events (s : State) (n : Nat) : (s.consume n).events = s.events := rfl
@[simp] theorem State.consume_written (s : State) (n : Nat) : (s.consume n).written = s.written := rfl
@[simp] theorem State.consume_draws (s : State) (n : Nat) : (s.consume n).draws = s.draws + n := rfl
@[simp] theorem State.consume_devOut (s : State) (n : Nat) : (s.consume n).devOut = s.devOut := rfl
@[simp] theorem State.consume_byteAt (s : State) (n : Nat) (x : Nat) : (s.consume n).byteAt x = s.byteAt x := rfl
@[simp] theorem State.consume_kindAt (s : State) (n : Nat) (x : Nat) : (s.consume n).kindAt x = s.kindAt x := rfl
@[simp] theorem State.consume_isCode (s : State) (n : Nat) (x : Nat) : (s.consume n).isCode x = s.isCode x := rfl

/-! The stack pointer is A3 (R13) -/

theorem State.a3_eq (s : State) : s.a3 = s.a .a3 := rfl

@[simp] theorem State.setA_a3 (s : State) (v : Ptr) : (s.setA .a3 v).a3 = v := rfl

end Sys2Proof.Machine
end

