-- ==== Sys2Proof/Laws/Memory.lean ====
section
/-! SUPPORT. Memory: a read after a write, the canonical form is kept, and equal contents are equal data. -/

namespace Sys2Proof.Machine

theorem Memory.entry_read (a x : Nat) (b : Byte) (m : Memory) (h : Memory.read m a = emptyByte) :
    Memory.read (Memory.entry a b m) x = if x = a then b else Memory.read m x := by
  unfold Memory.entry
  split <;> rename_i hb
  · split
    · subst_vars; exact h
    · rfl
  · rfl

theorem Memory.wfFrom_mono {lo lo' : Nat} {m : Memory} (h : Memory.wfFrom lo m = true) (hle : lo' ≤ lo) :
    Memory.wfFrom lo' m = true := by
  cases m with
  | nil => rfl
  | cons c m =>
    obtain ⟨k, b⟩ := c
    simp only [Memory.wfFrom, Bool.and_eq_true, decide_eq_true_eq] at h ⊢
    exact ⟨⟨⟨by omega, h.1.1.2⟩, h.1.2⟩, h.2⟩

/-- Below the first listed address a canonical memory reads as unlisted. -/
theorem Memory.read_below {lo x : Nat} {m : Memory} (h : Memory.wfFrom lo m = true) (hx : x < lo) :
    Memory.read m x = emptyByte := by
  induction m generalizing lo with
  | nil => rfl
  | cons c m ih =>
    obtain ⟨k, b⟩ := c
    simp only [Memory.wfFrom, Bool.and_eq_true, decide_eq_true_eq] at h
    have hk : x ≠ k := by omega
    simp only [Memory.read, if_neg hk]
    exact ih h.2 (by omega)

theorem Memory.read_write_from {lo : Nat} {m : Memory} (h : Memory.wfFrom lo m = true) (a x : Nat) (b : Byte) :
    Memory.read (Memory.write m a b) x = if x = a then b else Memory.read m x := by
  induction m generalizing lo with
  | nil => exact Memory.entry_read a x b [] rfl
  | cons c m ih =>
    obtain ⟨k, v⟩ := c
    have hw := h
    simp only [Memory.wfFrom, Bool.and_eq_true, decide_eq_true_eq] at h
    simp only [Memory.write]
    split
    · next hlt =>
      apply Memory.entry_read
      have hne : a ≠ k := by omega
      simp only [Memory.read, if_neg hne]
      exact Memory.read_below h.2 (by omega)
    · split
      · next hge heq =>
        subst heq
        rw [Memory.entry_read a x b m (Memory.read_below h.2 (by omega))]
        simp only [Memory.read]
        split <;> rfl
      · next hge hne =>
        simp only [Memory.read, ih h.2]
        by_cases hxk : x = k
        · have hxa : x ≠ a := by omega
          simp [hxk]
          intro hka
          exact absurd hka (by omega)
        · simp [hxk]

/-- A read of a canonical memory after a write: the byte written, or what was there before. -/
theorem Memory.read_write {m : Memory} (h : Memory.wf m = true) (a x : Nat) (b : Byte) :
    Memory.read (Memory.write m a b) x = if x = a then b else Memory.read m x :=
  Memory.read_write_from h a x b

theorem Memory.wfFrom_entry {lo a : Nat} {b : Byte} {m : Memory} (h : Memory.wfFrom (a + 1) m = true) (hlo : lo ≤ a)
    (ha : a < 2 ^ 24) : Memory.wfFrom lo (Memory.entry a b m) = true := by
  unfold Memory.entry
  split
  · exact Memory.wfFrom_mono h (by omega)
  · next hb =>
    simp only [Memory.wfFrom, Bool.and_eq_true, decide_eq_true_eq]
    exact ⟨⟨⟨hlo, ha⟩, hb⟩, h⟩

theorem Memory.wfFrom_write {lo a : Nat} {m : Memory} (h : Memory.wfFrom lo m = true) (b : Byte) (hlo : lo ≤ a)
    (ha : a < 2 ^ 24) : Memory.wfFrom lo (Memory.write m a b) = true := by
  induction m generalizing lo with
  | nil => exact Memory.wfFrom_entry rfl hlo ha
  | cons c m ih =>
    obtain ⟨k, v⟩ := c
    have hw := h
    simp only [Memory.wfFrom, Bool.and_eq_true, decide_eq_true_eq] at h
    simp only [Memory.write]
    split
    · next hlt =>
      apply Memory.wfFrom_entry _ hlo ha
      simp only [Memory.wfFrom, Bool.and_eq_true, decide_eq_true_eq]
      exact ⟨⟨⟨by omega, h.1.1.2⟩, h.1.2⟩, h.2⟩
    · split
      · next hge heq =>
        subst heq
        exact Memory.wfFrom_entry h.2 hlo ha
      · next hge hne =>
        simp only [Memory.wfFrom, Bool.and_eq_true, decide_eq_true_eq]
        exact ⟨h.1, ih h.2 (by omega)⟩

/-- A write keeps the canonical form. -/
theorem Memory.wf_write {m : Memory} (h : Memory.wf m = true) {a : Nat} (b : Byte) (ha : a < 2 ^ 24) :
    Memory.wf (Memory.write m a b) = true :=
  Memory.wfFrom_write h b (Nat.zero_le a) ha

theorem Memory.wf_reset : Memory.wf State.reset.mem = true := rfl

end Sys2Proof.Machine
end

