-- ==== Sys2Proof/Laws/Access.lean ====
section
/-! SUPPORT. What the access operations can do, said once: when a check passes, what a load goes on with, what a store
leaves. -/

namespace Sys2Proof.Machine

/-! Addresses -/

theorem bytesFrom_one (ea : Ptr) : bytesFrom ea 1 = [ea.toNat] := by
  simp [bytesFrom, ea.isLt]

theorem bytesFrom_two (ea : Ptr) : bytesFrom ea 2 = [ea.toNat, (ea + 1).toNat] := by
  simp [bytesFrom, List.range_succ, ea.isLt]

theorem bytesFrom_three (ea : Ptr) : bytesFrom ea 3 = [ea.toNat, (ea + 1).toNat, (ea + 2).toNat] := by
  simp [bytesFrom, List.range_succ, ea.isLt]

theorem bytesFrom_succ (ea : Ptr) (n : Nat) : bytesFrom ea (n + 1) = ea.toNat :: bytesFrom (ea + 1) n := by
  simp only [bytesFrom, List.range_succ_eq_map, List.map_cons, List.map_map, BitVec.ofNat_eq_ofNat]
  refine congr (congrArg _ (by simp)) (List.map_congr_left fun j _ => ?_)
  simp only [Function.comp]
  congr 1
  rw [BitVec.add_assoc]
  congr 1
  apply BitVec.eq_of_toNat_eq
  simp [BitVec.toNat_add]
  omega

theorem lt_of_mem_bytesFrom {ea : Ptr} {n a : Nat} (h : a ∈ bytesFrom ea n) : a < 2 ^ 24 := by
  simp only [bytesFrom, List.mem_map] at h
  obtain ⟨j, -, rfl⟩ := h
  exact BitVec.isLt _

/-! Checks -/

theorem odd_iff (ea : Ptr) : ea.getLsbD 0 = true ↔ ea.toNat % 2 = 1 := by
  simp [BitVec.getLsbD, Nat.testBit_zero]

/-- An access check passes exactly when the access may be made. -/
theorem checkAccess_eq_none_iff (s : State) (ea : Ptr) (n : Nat) :
    s.checkAccess ea n = none ↔ Loadable s ea n := by
  unfold State.checkAccess Loadable
  split
  · next h =>
    simp only [Bool.and_eq_true, decide_eq_true_eq, odd_iff] at h
    simp only [reduceCtorEq, false_iff, not_and]
    intro h'
    omega
  · next h =>
    simp only [Bool.and_eq_true, decide_eq_true_eq, odd_iff, not_and] at h
    have hev : n = 1 ∨ ea.toNat % 2 = 0 := by
      by_cases h1 : n = 1
      · exact Or.inl h1
      · have := h h1; omega
    cases hf : (bytesFrom ea n).find? (fun a => decide (s.kindAt a = .unmapped)) with
    | none =>
      simp only [List.find?_eq_none, decide_eq_true_eq] at hf
      exact ⟨fun _ => ⟨hev, hf⟩, fun _ => rfl⟩
    | some a =>
      have hm := List.mem_of_find?_eq_some hf
      have hp := List.find?_some hf
      simp only [decide_eq_true_eq] at hp
      simp only [reduceCtorEq, false_iff, not_and]
      intro _ h'
      exact h' a hm hp

/-- A store check passes exactly when the store may be made. -/
theorem checkStore_eq_none_iff (s : State) (ea : Ptr) (n : Nat) :
    s.checkStore ea n = none ↔ Storable s ea n := by
  unfold State.checkStore Storable
  rw [← checkAccess_eq_none_iff]
  cases hc : s.checkAccess ea n with
  | some f => simp
  | none =>
    simp only [true_and]
    cases hf : (bytesFrom ea n).find? (fun a => s.isCode a) with
    | some a =>
      have hm := List.mem_of_find?_eq_some hf
      have hp := List.find?_some hf
      simp only [reduceCtorEq, false_iff]
      intro h'
      rw [(h' a hm).1] at hp
      exact absurd hp (by decide)
    | none =>
      simp only [List.find?_eq_none, Bool.not_eq_true] at hf
      cases hg : (bytesFrom ea n).find? (fun a => decide (s.kindAt a = .rom .stops)) with
      | some a =>
        have hm := List.mem_of_find?_eq_some hg
        have hp := List.find?_some hg
        simp only [decide_eq_true_eq] at hp
        simp only [reduceCtorEq, false_iff]
        intro h'
        exact (h' a hm).2 hp
      | none =>
        simp only [List.find?_eq_none, decide_eq_true_eq] at hg
        simp only [true_iff]
        exact fun a ha => ⟨hf a ha, hg a ha⟩

/-! Loads -/

theorem load8_eq {ea : Ptr} {s : State} (h : Loadable s ea 1) (k : Byte → State → Result) :
    load8 ea s k = k (s.peek8 ea) (s.afterRead ea 1) := by
  simp only [load8, (checkAccess_eq_none_iff s ea 1).2 h]

theorem load16_eq {ea : Ptr} {s : State} (h : Loadable s ea 2) (k : Word → State → Result) :
    load16 ea s k = k (s.peek16 ea) (s.afterRead ea 2) := by
  simp only [load16, (checkAccess_eq_none_iff s ea 2).2 h]

theorem load24_eq {ea : Ptr} {s : State} (h : Loadable s ea 3) (k : Ptr → State → Result) :
    load24 ea s k = k (s.peek24 ea) (s.afterRead ea 3) := by
  simp only [load24, (checkAccess_eq_none_iff s ea 3).2 h]

theorem load8_next {ea : Ptr} {s t : State} {k : Byte → State → Result} (h : load8 ea s k = .next t) :
    Loadable s ea 1 ∧ k (s.peek8 ea) (s.afterRead ea 1) = .next t := by
  simp only [load8] at h
  split at h
  · cases h
  · next hc => exact ⟨(checkAccess_eq_none_iff s ea 1).1 hc, h⟩

theorem load16_next {ea : Ptr} {s t : State} {k : Word → State → Result} (h : load16 ea s k = .next t) :
    Loadable s ea 2 ∧ k (s.peek16 ea) (s.afterRead ea 2) = .next t := by
  simp only [load16] at h
  split at h
  · cases h
  · next hc => exact ⟨(checkAccess_eq_none_iff s ea 2).1 hc, h⟩

theorem load24_next {ea : Ptr} {s t : State} {k : Ptr → State → Result} (h : load24 ea s k = .next t) :
    Loadable s ea 3 ∧ k (s.peek24 ea) (s.afterRead ea 3) = .next t := by
  simp only [load24] at h
  split at h
  · cases h
  · next hc => exact ⟨(checkAccess_eq_none_iff s ea 3).1 hc, h⟩

/-- After a read the state differs in the count of draws only. -/
theorem afterRead_eq (s : State) (ea : Ptr) (n : Nat) : ∃ k, s.afterRead ea n = s.consume k := by
  unfold State.afterRead
  split
  · exact ⟨n, rfl⟩
  · exact ⟨0, rfl⟩

@[simp] theorem afterRead_d (s : State) (ea : Ptr) (n : Nat) (r : DReg) : (s.afterRead ea n).d r = s.d r := by
  obtain ⟨k, hk⟩ := afterRead_eq s ea n; rw [hk]; simp
@[simp] theorem afterRead_a (s : State) (ea : Ptr) (n : Nat) (r : AReg) : (s.afterRead ea n).a r = s.a r := by
  obtain ⟨k, hk⟩ := afterRead_eq s ea n; rw [hk]; simp
@[simp] theorem afterRead_a3 (s : State) (ea : Ptr) (n : Nat) : (s.afterRead ea n).a3 = s.a3 := afterRead_a s ea n .a3
@[simp] theorem afterRead_pc (s : State) (ea : Ptr) (n : Nat) : (s.afterRead ea n).pc = s.pc := by
  obtain ⟨k, hk⟩ := afterRead_eq s ea n; rw [hk]; simp
@[simp] theorem afterRead_mdr (s : State) (ea : Ptr) (n : Nat) : (s.afterRead ea n).mdr = s.mdr := by
  obtain ⟨k, hk⟩ := afterRead_eq s ea n; rw [hk]; simp
@[simp] theorem afterRead_psw (s : State) (ea : Ptr) (n : Nat) : (s.afterRead ea n).psw = s.psw := by
  obtain ⟨k, hk⟩ := afterRead_eq s ea n; rw [hk]; simp
@[simp] theorem afterRead_mem (s : State) (ea : Ptr) (n : Nat) : (s.afterRead ea n).mem = s.mem := by
  obtain ⟨k, hk⟩ := afterRead_eq s ea n; rw [hk]; simp
@[simp] theorem afterRead_platform (s : State) (ea : Ptr) (n : Nat) : (s.afterRead ea n).platform = s.platform := by
  obtain ⟨k, hk⟩ := afterRead_eq s ea n; rw [hk]; simp
@[simp] theorem afterRead_events (s : State) (ea : Ptr) (n : Nat) : (s.afterRead ea n).events = s.events := by
  obtain ⟨k, hk⟩ := afterRead_eq s ea n; rw [hk]; simp
@[simp] theorem afterRead_written (s : State) (ea : Ptr) (n : Nat) : (s.afterRead ea n).written = s.written := by
  obtain ⟨k, hk⟩ := afterRead_eq s ea n; rw [hk]; simp
@[simp] theorem afterRead_devOut (s : State) (ea : Ptr) (n : Nat) : (s.afterRead ea n).devOut = s.devOut := by
  obtain ⟨k, hk⟩ := afterRead_eq s ea n; rw [hk]; simp
@[simp] theorem afterRead_byteAt (s : State) (ea : Ptr) (n x : Nat) : (s.afterRead ea n).byteAt x = s.byteAt x := by
  obtain ⟨k, hk⟩ := afterRead_eq s ea n; rw [hk]; simp
@[simp] theorem afterRead_kindAt (s : State) (ea : Ptr) (n x : Nat) : (s.afterRead ea n).kindAt x = s.kindAt x := by
  obtain ⟨k, hk⟩ := afterRead_eq s ea n; rw [hk]; simp
@[simp] theorem afterRead_isCode (s : State) (ea : Ptr) (n x : Nat) : (s.afterRead ea n).isCode x = s.isCode x := by
  obtain ⟨k, hk⟩ := afterRead_eq s ea n; rw [hk]; simp

/-! Stores -/

theorem store_eq {ea : Ptr} {bs : List Byte} {s : State} (h : Storable s ea bs.length) (k : State → Result) :
    store ea bs s k = k (s.pokeBytes ea bs) := by
  simp only [store, (checkStore_eq_none_iff s ea bs.length).2 h]

theorem store_next {ea : Ptr} {bs : List Byte} {s t : State} {k : State → Result} (h : store ea bs s k = .next t) :
    Storable s ea bs.length ∧ k (s.pokeBytes ea bs) = .next t := by
  simp only [store] at h
  split at h
  · cases h
  · next hc => exact ⟨(checkStore_eq_none_iff s ea bs.length).1 hc, h⟩

/-- A byte store changes memory, the list of written addresses or the device output, nothing else. -/
theorem pokeByte_eq (s : State) (a : Nat) (b : Byte) :
    ∃ m w o, s.pokeByte a b = { s with mem := m, written := w, devOut := o } := by
  unfold State.pokeByte
  split
  · exact ⟨_, _, s.devOut, rfl⟩
  · exact ⟨s.mem, s.written, _, rfl⟩
  · exact ⟨s.mem, s.written, s.devOut, rfl⟩
  · exact ⟨s.mem, s.written, s.devOut, rfl⟩

theorem pokeBytes_eq (s : State) (ea : Ptr) (bs : List Byte) :
    ∃ m w o, s.pokeBytes ea bs = { s with mem := m, written := w, devOut := o } := by
  induction bs generalizing s ea with
  | nil => exact ⟨s.mem, s.written, s.devOut, rfl⟩
  | cons b bs ih =>
    obtain ⟨m, w, o, h⟩ := pokeByte_eq s ea.toNat b
    obtain ⟨m', w', o', h'⟩ := ih (s.pokeByte ea.toNat b) (ea + 1)
    exact ⟨m', w', o', by rw [State.pokeBytes, h', h]⟩

@[simp] theorem pokeBytes_d (s : State) (ea : Ptr) (bs : List Byte) (r : DReg) : (s.pokeBytes ea bs).d r = s.d r := by
  obtain ⟨m, w, o, h⟩ := pokeBytes_eq s ea bs; rw [h]; cases r <;> rfl
@[simp] theorem pokeBytes_a (s : State) (ea : Ptr) (bs : List Byte) (r : AReg) : (s.pokeBytes ea bs).a r = s.a r := by
  obtain ⟨m, w, o, h⟩ := pokeBytes_eq s ea bs; rw [h]; cases r <;> rfl
@[simp] theorem pokeBytes_a3 (s : State) (ea : Ptr) (bs : List Byte) : (s.pokeBytes ea bs).a3 = s.a3 :=
  pokeBytes_a s ea bs .a3
@[simp] theorem pokeBytes_pc (s : State) (ea : Ptr) (bs : List Byte) : (s.pokeBytes ea bs).pc = s.pc := by
  obtain ⟨m, w, o, h⟩ := pokeBytes_eq s ea bs; rw [h]
@[simp] theorem pokeBytes_mdr (s : State) (ea : Ptr) (bs : List Byte) : (s.pokeBytes ea bs).mdr = s.mdr := by
  obtain ⟨m, w, o, h⟩ := pokeBytes_eq s ea bs; rw [h]
@[simp] theorem pokeBytes_psw (s : State) (ea : Ptr) (bs : List Byte) : (s.pokeBytes ea bs).psw = s.psw := by
  obtain ⟨m, w, o, h⟩ := pokeBytes_eq s ea bs; rw [h]
@[simp] theorem pokeBytes_platform (s : State) (ea : Ptr) (bs : List Byte) :
    (s.pokeBytes ea bs).platform = s.platform := by
  obtain ⟨m, w, o, h⟩ := pokeBytes_eq s ea bs; rw [h]
@[simp] theorem pokeBytes_events (s : State) (ea : Ptr) (bs : List Byte) : (s.pokeBytes ea bs).events = s.events := by
  obtain ⟨m, w, o, h⟩ := pokeBytes_eq s ea bs; rw [h]
@[simp] theorem pokeBytes_draws (s : State) (ea : Ptr) (bs : List Byte) : (s.pokeBytes ea bs).draws = s.draws := by
  obtain ⟨m, w, o, h⟩ := pokeBytes_eq s ea bs; rw [h]
@[simp] theorem pokeBytes_kindAt (s : State) (ea : Ptr) (bs : List Byte) (x : Nat) :
    (s.pokeBytes ea bs).kindAt x = s.kindAt x := by
  obtain ⟨m, w, o, h⟩ := pokeBytes_eq s ea bs; rw [h]; rfl
@[simp] theorem pokeBytes_isCode (s : State) (ea : Ptr) (bs : List Byte) (x : Nat) :
    (s.pokeBytes ea bs).isCode x = s.isCode x := by
  obtain ⟨m, w, o, h⟩ := pokeBytes_eq s ea bs; rw [h]; rfl

theorem pokeByte_kindAt (s : State) (a x : Nat) (b : Byte) : (s.pokeByte a b).kindAt x = s.kindAt x := by
  obtain ⟨m, w, o, h⟩ := pokeByte_eq s a b; rw [h]; rfl

/-- A write keeps what a canonical or any other memory reads at every other address. -/
theorem Memory.read_write_ne (m : Memory) {a x : Nat} (b : Byte) (hx : x ≠ a) :
    Memory.read (Memory.write m a b) x = Memory.read m x := by
  have hentry : ∀ m', Memory.read (Memory.entry a b m') x = Memory.read m' x := by
    intro m'; unfold Memory.entry; split
    · rfl
    · simp [Memory.read, hx]
  induction m with
  | nil => exact hentry []
  | cons c m ih =>
    obtain ⟨k, v⟩ := c
    simp only [Memory.write]
    split
    · exact hentry _
    · split
      · next heq => subst heq; rw [hentry]; simp [Memory.read, hx]
      · simp only [Memory.read, ih]

theorem pokeByte_byteAt_ne (s : State) {a x : Nat} (b : Byte) (hx : x ≠ a) :
    (s.pokeByte a b).byteAt x = s.byteAt x := by
  unfold State.pokeByte State.byteAt
  split
  · exact Memory.read_write_ne _ _ hx
  · rfl
  · rfl
  · rfl

/-- A store changes no byte outside its own addresses. -/
theorem pokeBytes_byteAt_of_not_mem (s : State) (ea : Ptr) (bs : List Byte) {x : Nat}
    (hx : x ∉ bytesFrom ea bs.length) : (s.pokeBytes ea bs).byteAt x = s.byteAt x := by
  induction bs generalizing s ea with
  | nil => rfl
  | cons b bs ih =>
    rw [List.length_cons, bytesFrom_succ, List.mem_cons, not_or] at hx
    rw [State.pokeBytes, ih _ _ hx.2, pokeByte_byteAt_ne _ _ hx.1]

/-- A store that touches no device sends nothing out. -/
theorem pokeBytes_devOut (s : State) (ea : Ptr) (bs : List Byte)
    (h : ∀ x ∈ bytesFrom ea bs.length, s.kindAt x ≠ .device) : (s.pokeBytes ea bs).devOut = s.devOut := by
  induction bs generalizing s ea with
  | nil => rfl
  | cons b bs ih =>
    rw [List.length_cons, bytesFrom_succ] at h
    rw [State.pokeBytes, ih]
    · unfold State.pokeByte
      split <;> first | rfl | (next hk => exact absurd hk (h _ (by simp)))
    · intro x hx
      rw [pokeByte_kindAt]
      exact h x (List.mem_cons_of_mem _ hx)

/-- The frame of a store. -/
theorem pokeBytes_keepsMem (s : State) (ea : Ptr) (bs : List Byte) :
    KeepsMem s (s.pokeBytes ea bs) (bytesFrom ea bs.length) :=
  ⟨fun _ hx => pokeBytes_byteAt_of_not_mem s ea bs hx, fun h => pokeBytes_devOut s ea bs h⟩

theorem pokeByte_inv {s : State} (hs : s.Inv) {a : Nat} (b : Byte) (ha : a < 2 ^ 24) : (s.pokeByte a b).Inv := by
  obtain ⟨hm, hw, hd⟩ := hs
  unfold State.pokeByte
  split
  · refine ⟨Memory.wf_write hm b ha, ?_, hd⟩
    intro x hx
    rcases List.mem_cons.1 hx with rfl | hx
    · exact ha
    · exact hw x hx
  · refine ⟨hm, hw, ?_⟩
    intro c hc
    rcases List.mem_cons.1 hc with rfl | hc
    · exact ha
    · exact hd c hc
  · exact ⟨hm, hw, hd⟩
  · exact ⟨hm, hw, hd⟩

/-- A store keeps the invariant. -/
theorem pokeBytes_inv {s : State} (hs : s.Inv) (ea : Ptr) (bs : List Byte) : (s.pokeBytes ea bs).Inv := by
  induction bs generalizing s ea with
  | nil => exact hs
  | cons b bs ih => exact ih (pokeByte_inv hs b ea.isLt) (ea + 1)

theorem pokeByte_byteAt_same {s : State} (hm : Memory.wf s.mem = true) {a : Nat} (b : Byte) (hk : s.kindAt a = .ram) :
    (s.pokeByte a b).byteAt a = b := by
  simp only [State.pokeByte, hk, State.byteAt]
  rw [Memory.read_write hm]
  simp

/-- A store of at most 2^24 bytes to RAM reads back. -/
theorem pokeBytes_holds {s : State} (hs : s.Inv) (ea : Ptr) (bs : List Byte) (hl : bs.length ≤ 2 ^ 24) :
    HoldsBytes s (s.pokeBytes ea bs) ea bs := by
  induction bs generalizing s ea with
  | nil => intro j h; exact absurd h (by simp)
  | cons b bs ih =>
    intro j h hk
    rw [State.pokeBytes]
    cases j with
    | zero =>
      rw [pokeBytes_byteAt_of_not_mem]
      · simpa using pokeByte_byteAt_same hs.1 b (by simpa using hk)
      · simp only [bytesFrom, List.mem_map, List.mem_range, not_exists, not_and]
        intro i hi heq
        have := congrArg (fun v : Ptr => v) (BitVec.eq_of_toNat_eq heq)
        simp only [List.length_cons] at hl
        have h2 := congrArg BitVec.toNat this
        simp [BitVec.toNat_add] at h2
        have := ea.isLt
        omega
    | succ j =>
      have hadd : ea + BitVec.ofNat 24 (j + 1) = ea + 1 + BitVec.ofNat 24 j := by
        rw [BitVec.add_assoc]
        congr 1
        apply BitVec.eq_of_toNat_eq
        simp [BitVec.toNat_add]
        omega
      rw [hadd] at hk ⊢
      simp only [List.length_cons] at h hl
      have := ih (pokeByte_inv hs b ea.isLt) (ea + 1) (by omega) j (by omega) (by rw [pokeByte_kindAt]; exact hk)
      simpa using this

/-! Stops, and what a store sends out -/

/-- The reason an access check gives is one that applies. -/
theorem stopsAsLoad_of_check {s : State} {ea : Ptr} {n : Nat} {r : Result}
    (h : ∀ f, s.checkAccess ea n = some f → r = .fault f) : StopsAsLoad s ea n r := by
  unfold State.checkAccess at h
  refine ⟨fun hn ho => h _ ?_, fun he ⟨x, hx, hk⟩ => ?_⟩
  · rw [if_pos (by simp [hn, (odd_iff ea).2 ho])]
  · have hodd : ¬((decide (n ≠ 1) && ea.getLsbD 0) = true) := by
      simp only [Bool.and_eq_true, decide_eq_true_eq, odd_iff]; omega
    rw [if_neg hodd] at h
    cases hf : (bytesFrom ea n).find? (fun a => decide (s.kindAt a = .unmapped)) with
    | none => exact absurd hk (by simpa using List.find?_eq_none.1 hf x hx)
    | some a =>
      exact ⟨a, List.mem_of_find?_eq_some hf, by simpa using List.find?_some hf, h _ (by rw [hf])⟩

/-- The reason a store check gives is one that applies. -/
theorem stopsAsStore_of_check {s : State} {ea : Ptr} {n : Nat} {r : Result}
    (h : ∀ f, s.checkStore ea n = some f → r = .fault f) : StopsAsStore s ea n r := by
  unfold State.checkStore at h
  refine ⟨stopsAsLoad_of_check fun f hf => h f (by rw [hf]), fun hl ⟨x, hx, hk⟩ => ?_, fun hl hc ⟨x, hx, hk⟩ => ?_⟩
  all_goals rw [(checkAccess_eq_none_iff s ea n).2 hl] at h
  · cases hf : (bytesFrom ea n).find? (fun a => s.isCode a) with
    | none => exact absurd hk (by simpa using List.find?_eq_none.1 hf x hx)
    | some a => exact ⟨a, List.mem_of_find?_eq_some hf, by simpa using List.find?_some hf, h _ (by rw [hf])⟩
  · rw [List.find?_eq_none.2 (by simpa using hc)] at h
    cases hf : (bytesFrom ea n).find? (fun a => decide (s.kindAt a = .rom .stops)) with
    | none => exact absurd hk (by simpa using List.find?_eq_none.1 hf x hx)
    | some a => exact ⟨a, List.mem_of_find?_eq_some hf, by simpa using List.find?_some hf, h _ (by rw [hf])⟩

theorem load8_stops (ea : Ptr) (s : State) (k : Byte → State → Result) : StopsAsLoad s ea 1 (load8 ea s k) :=
  stopsAsLoad_of_check fun f hf => by simp only [load8, hf]

theorem load16_stops (ea : Ptr) (s : State) (k : Word → State → Result) : StopsAsLoad s ea 2 (load16 ea s k) :=
  stopsAsLoad_of_check fun f hf => by simp only [load16, hf]

theorem load24_stops (ea : Ptr) (s : State) (k : Ptr → State → Result) : StopsAsLoad s ea 3 (load24 ea s k) :=
  stopsAsLoad_of_check fun f hf => by simp only [load24, hf]

theorem store_stops (ea : Ptr) (bs : List Byte) (s : State) (k : State → Result) :
    StopsAsStore s ea bs.length (store ea bs s k) :=
  stopsAsStore_of_check fun f hf => by simp only [store, hf]

/-- What a store sends out is the bytes of its device addresses, nothing else. -/
theorem pokeBytes_devOut_eq (s : State) (ea : Ptr) (bs : List Byte) :
    (s.pokeBytes ea bs).devOut = deviceBytes s ea bs ++ s.devOut := by
  induction bs generalizing s ea with
  | nil => rfl
  | cons b bs ih =>
    have hk : deviceBytes (s.pokeByte ea.toNat b) (ea + 1) bs = deviceBytes s (ea + 1) bs := by
      simp only [deviceBytes, pokeByte_kindAt]
    rw [State.pokeBytes, ih, hk]
    simp only [deviceBytes, List.length_cons, bytesFrom_succ, List.zip_cons_cons, List.filter_cons]
    unfold State.pokeByte
    split <;> rename_i h <;> simp [h]

end Sys2Proof.Machine
end

