-- ==== Sys2Proof/Laws/Shapes.lean ====
section
/-! SUPPORT. For each shape of meaning, everything it can do: if it answers a next state, then that one, and when. -/

namespace Sys2Proof.Machine

variable {s t : State} {len : Nat}

theorem next_inj {a b : State} (h : (Host.Outcome.next a : Result) = .next b) : a = b := by cases h; rfl

theorem loadWordToD_next {ea : Ptr} {r : DReg} (h : loadWordToD ea r len s = .next t) :
    Loadable s ea 2 ∧ t = ((s.afterRead ea 2).setD r (sextWord (s.peek16 ea))).advance len :=
  ⟨(load16_next h).1, (next_inj (load16_next h).2).symm⟩

theorem loadPtrToD_next {ea : Ptr} {r : DReg} (h : loadPtrToD ea r len s = .next t) :
    Loadable s ea 3 ∧ t = ((s.afterRead ea 3).setD r (s.peek24 ea)).advance len :=
  ⟨(load24_next h).1, (next_inj (load24_next h).2).symm⟩

theorem loadPtrToA_next {ea : Ptr} {r : AReg} (h : loadPtrToA ea r len s = .next t) :
    Loadable s ea 3 ∧ t = ((s.afterRead ea 3).setA r (s.peek24 ea)).advance len :=
  ⟨(load24_next h).1, (next_inj (load24_next h).2).symm⟩

theorem loadSignedByteToD_next {ea : Ptr} {r : DReg} (h : loadSignedByteToD ea r len s = .next t) :
    Loadable s ea 1 ∧ t = ((s.afterRead ea 1).setD r (sextByte (s.peek8 ea))).advance len :=
  ⟨(load8_next h).1, (next_inj (load8_next h).2).symm⟩

theorem loadZeroByteToD_next {ea : Ptr} {r : DReg} (h : loadZeroByteToD ea r len s = .next t) :
    Loadable s ea 1 ∧ t = ((s.afterRead ea 1).setD r (zextByte (s.peek8 ea))).advance len :=
  ⟨(load8_next h).1, (next_inj (load8_next h).2).symm⟩

theorem storeBytes_next {ea : Ptr} {bs : List Byte} (h : storeBytes ea bs len s = .next t) :
    Storable s ea bs.length ∧ t = (s.pokeBytes ea bs).advance len :=
  ⟨(store_next h).1, (next_inj (store_next h).2).symm⟩

theorem modifyByte_next {f : Byte → Byte} {mask : Byte} {ea : Ptr} (h : modifyByte f mask ea len s = .next t) :
    Loadable s ea 1 ∧ Storable (s.afterRead ea 1) ea 1 ∧
      t = ((((s.afterRead ea 1).pokeBytes ea [f (s.peek8 ea)]).setLowFlags false false false
        (decide (s.peek8 ea &&& mask = 0))).advance len) := by
  obtain ⟨hl, h⟩ := load8_next h
  obtain ⟨hs, h⟩ := store_next h
  exact ⟨hl, hs, (next_inj h).symm⟩

theorem callSubroutine_next {target : Ptr} (h : callSubroutine target len s = .next t) :
    Storable s (s.a3 - 4) 3 ∧
      t = ((s.pokeBytes (s.a3 - 4) (le24 (s.nextPc len))).setA .a3 (s.a3 - 4)).jump target :=
  ⟨(store_next h).1, (next_inj (store_next h).2).symm⟩

theorem enterInterrupt_next {setMask : Word → Word} {entry : Ptr} (h : enterInterrupt setMask entry s = .next t) :
    ∃ u v, u = (s.consume 2).pokeBytes (s.a3 - 6) (le16 s.pswRead) ∧ v = u.pokeBytes (s.a3 - 6 + 2) (le24 s.pc) ∧
      Storable (s.consume 2) (s.a3 - 6) 2 ∧ Storable u (s.a3 - 6 + 2) 3 ∧
      t = ((v.setA .a3 (s.a3 - 6)).setPsw (setMask (pswClearIE s.psw))).jump entry := by
  obtain ⟨hu, h⟩ := store_next h
  obtain ⟨hv, h⟩ := store_next h
  exact ⟨_, _, rfl, rfl, hu, hv, (next_inj h).symm⟩

theorem returnFromInterrupt_next (h : returnFromInterrupt s = .next t) :
    ∃ u, u = s.afterRead s.a3 2 ∧ Loadable s s.a3 2 ∧ Loadable u (s.a3 + 2) 3 ∧
      t = (((u.afterRead (s.a3 + 2) 3).setPsw (s.peek16 s.a3)).setA .a3 (s.a3 + 6)).jump (u.peek24 (s.a3 + 2)) := by
  obtain ⟨hl, h⟩ := load16_next h
  obtain ⟨hm, h⟩ := load24_next h
  exact ⟨_, rfl, hl, hm, (next_inj h).symm⟩

theorem andThen_next {first : Result} {second : State → Result} (h : andThen first second = .next t) :
    ∃ u, first = .next u ∧ second u = .next t := by
  cases first with
  | next u => exact ⟨u, rfl, h⟩
  | fault f => cases h
  | refused r => cases h

/-! The invariant under the updates -/

theorem Inv_of_same (hs : s.Inv) (hm : t.mem = s.mem) (hw : t.written = s.written ∨ t.written = [])
    (hd : t.devOut = s.devOut) : t.Inv := by
  obtain ⟨h1, h2, h3⟩ := hs
  refine ⟨hm ▸ h1, ?_, hd ▸ h3⟩
  rcases hw with hw | hw <;> rw [hw]
  · exact h2
  · intro a ha; cases ha

theorem inv_moveD (hs : s.Inv) (r : DReg) (v : Ptr) : ((s.setD r v).advance len).Inv :=
  Inv_of_same hs (by simp) (by simp) (by simp)

theorem inv_moveA (hs : s.Inv) (r : AReg) (v : Ptr) : ((s.setA r v).advance len).Inv :=
  Inv_of_same hs (by simp) (by simp) (by simp)

theorem inv_afterRead (hs : s.Inv) (ea : Ptr) (n : Nat) : (s.afterRead ea n).Inv :=
  Inv_of_same hs (by simp) (by simp) (by simp)

end Sys2Proof.Machine
end

