-- ==== Sys2Proof/Laws/Requests.lean ====
section
/-! SUPPORT. Which requests are accepted, in the terms of Sys2Proof/Safety.lean; what writing IM and clearing IE do to the
PSW; what a step does with a request. -/

namespace Sys2Proof.Machine

variable {s : State} {l : Fin 7} {e : BoundaryEvent} {es : List BoundaryEvent}

theorem pswIM_eq (pos : Nat) (p : Word) : pswIM pos p = (p.extractLsb' pos 3).toNat := by
  simp [pswIM]

/-- Two words agree in the bits of a mask exactly when they are equal under it. -/
theorem and_mask_eq_iff (p v m : Word) : p &&& m = v &&& m ↔ ∀ k, m.getLsbD k = true → p.getLsbD k = v.getLsbD k := by
  refine ⟨fun h k hk => ?_, fun h => BitVec.eq_of_getLsbD_eq fun k _ => ?_⟩
  · simpa [hk] using congrArg (fun x : Word => x.getLsbD k) h
  · cases hk : m.getLsbD k with
    | false => simp [hk]
    | true => simpa [hk] using h k hk

theorem acceptsMaskable_iff : acceptsMaskable s.platform s.psw l = true ↔ IrqAccepted s l := by
  unfold acceptsMaskable admits IrqAccepted
  cases s.platform.irqAccept with
  | belowMask => simp [pswIE, pswIM_eq]
  | rows table => simp [pswIE, and_mask_eq_iff]

theorem pswClearIE_getLsbD (p : Word) (k : Nat) : (pswClearIE p).getLsbD k = (p.getLsbD k && decide (k ≠ 11)) := by
  by_cases hk : k < 16
  · have h : (0xF7FF : Word).getLsbD k = decide (k ≠ 11) := by interval_cases k <;> rfl
    rw [pswClearIE, BitVec.getLsbD_and, h]
  · simp [BitVec.getLsbD_of_ge p k (by omega), BitVec.getLsbD_of_ge (pswClearIE p) k (by omega)]

/-- Writing IM puts the level in its three bits, where they fit. -/
theorem pswSetIM_extract {pos : Nat} (h : pos + 3 ≤ 16) (p : Word) (l : Fin 7) :
    ((pswSetIM pos p l.val).extractLsb' pos 3).toNat = l.val := by
  have hpos : pos ≤ 13 := by omega
  have hx : (pswSetIM pos p l.val).extractLsb' pos 3 = BitVec.ofNat 3 l.val := by
    refine BitVec.eq_of_getLsbD_eq fun k hk => ?_
    interval_cases k <;> fin_cases l <;> simp [pswSetIM, show pos < 16 by omega, show pos + 1 < 16 by omega,
      show pos + 2 < 16 by omega]
  rw [hx, BitVec.toNat_ofNat]
  omega

/-- Writing IM keeps every other bit. -/
theorem pswSetIM_getLsbD {pos k : Nat} (h : k < pos ∨ pos + 3 ≤ k) (p : Word) (n : Nat) :
    (pswSetIM pos p n).getLsbD k = p.getLsbD k := by
  have hsmall : ∀ x, x < 8 → pos + 3 ≤ k → (BitVec.ofNat 16 x).getLsbD (k - pos) = false := fun x hx hk => by
    rw [BitVec.getLsbD_ofNat, Nat.testBit_lt_two_pow
      (lt_of_lt_of_le hx (show 2 ^ 3 ≤ 2 ^ (k - pos) from Nat.pow_le_pow_right (by omega) (by omega))), Bool.and_false]
  by_cases hk : k < 16
  · rw [pswSetIM, BitVec.getLsbD_or, BitVec.getLsbD_and, BitVec.getLsbD_not, BitVec.getLsbD_shiftLeft,
      BitVec.getLsbD_shiftLeft]
    rcases h with h | h
    · simp [h, hk]
    · have h7 : (7 : Word).getLsbD (k - pos) = false := hsmall 7 (by omega) h
      rw [h7, hsmall (n % 8) (by omega) h]
      simp [hk]
  · simp [BitVec.getLsbD_of_ge p k (by omega), BitVec.getLsbD_of_ge (pswSetIM pos p n) k (by omega)]

theorem step_nonMaskable (he : s.events = .nonMaskable :: es) :
    step s = enterNonMaskable { s with events := es } := by
  rw [step, nextStep, he]; rfl

theorem step_maskable (he : s.events = .maskable l :: es) (h : IrqAccepted s l) :
    step s = enterMaskable l { s with events := es } := by
  rw [step, nextStep, he]
  exact if_pos (acceptsMaskable_iff.2 h)

/-- A request that is not accepted leaves the next instruction to run. -/
theorem step_not_accepted (he : s.events = .maskable l :: es) (h : ¬IrqAccepted s l) :
    step s = runInstruction { s with events := es } := by
  rw [step, nextStep, he]
  exact if_neg (mt acceptsMaskable_iff.1 h)

/-- A request that is entered pushes its frame in place of the next instruction. -/
theorem step_enters (he : s.events = e :: es) (h : IsEntered s e) :
    ∃ mask entry, step s = enterInterrupt mask entry { s with events := es } := by
  rcases h with rfl | ⟨l, rfl, hl⟩
  · exact ⟨_, _, step_nonMaskable he⟩
  · exact ⟨_, _, step_maskable he hl⟩

end Sys2Proof.Machine
end

