-- ==== Sys2Proof/Laws/Accesses.lean ====
section
/-! SUPPORT. Which accesses an instruction makes, said once for all instructions: every one but RTI has one of six shapes,
with the load and the store that Sys2Proof/Safety.lean names for it. -/

namespace Sys2Proof.Machine

/-! What may be accessed depends on the platform alone -/

theorem loadable_congr {s t : State} (h : t.platform = s.platform) (ea : Ptr) (n : Nat) :
    Loadable t ea n ↔ Loadable s ea n := by
  simp only [Loadable, State.kindAt, h]

theorem storable_congr {s t : State} (h : t.platform = s.platform) (ea : Ptr) (n : Nat) :
    Storable t ea n ↔ Storable s ea n := by
  simp only [Storable, loadable_congr h, State.isCode, State.kindAt, h]

theorem stopsAsLoad_congr {s t : State} (h : t.platform = s.platform) (ea : Ptr) (n : Nat) (r : Result) :
    StopsAsLoad t ea n r ↔ StopsAsLoad s ea n r := by
  simp only [StopsAsLoad, State.kindAt, h]

theorem stopsAsStore_congr {s t : State} (h : t.platform = s.platform) (ea : Ptr) (n : Nat) (r : Result) :
    StopsAsStore t ea n r ↔ StopsAsStore s ea n r := by
  simp only [StopsAsStore, stopsAsLoad_congr h, loadable_congr h, State.isCode, State.kindAt, h]

/-! The shapes -/

theorem le16_low16 (v : Ptr) : le16 (low16 v) = twoBytes v := by
  simp only [le16, low16, twoBytes, List.cons.injEq, and_true]
  constructor <;> (refine BitVec.eq_of_getLsbD_eq fun k hk => ?_) <;> interval_cases k <;> simp

theorem eaD8_zero (s : State) (n : AReg) : s.eaD8 0 n = s.eaInd n := by
  simp [State.eaD8, State.eaInd, sextByte]

/-- The shapes of meaning by access: none, a load of each width, a store, a byte read and written back. Each gives the
load and the store it makes, and goes on to a next state. -/
inductive AccessShape (s : State) : Option (Ptr × Nat) → Option (Ptr × List Byte) → Result → Prop
  | plain (t : State) : AccessShape s none none (.next t)
  | load8 (ea : Ptr) (k : Byte → State → State) :
      AccessShape s (some (ea, 1)) none (load8 ea s fun b t => .next (k b t))
  | load16 (ea : Ptr) (k : Word → State → State) :
      AccessShape s (some (ea, 2)) none (load16 ea s fun w t => .next (k w t))
  | load24 (ea : Ptr) (k : Ptr → State → State) :
      AccessShape s (some (ea, 3)) none (load24 ea s fun v t => .next (k v t))
  | store (ea : Ptr) (bytes : List Byte) (k : State → State) (hk : ∀ t, (k t).devOut = t.devOut) :
      AccessShape s none (some (ea, bytes)) (store ea bytes s fun t => .next (k t))
  | modify (f : Byte → Byte) (mask : Byte) (ea : Ptr) (len : Nat) :
      AccessShape s (some (ea, 1)) (some (ea, [f (s.peek8 ea)])) (modifyByte f mask ea len s)

/-- MOVB in its assembler forms loads a byte, then extends it in place. -/
theorem accessShape_loadThenExtend (s : State) (ea : Ptr) (r : DReg) (n : Nat) :
    AccessShape s (some (ea, 1)) none
      (andThen (loadZeroByteToD ea r n s) fun t => moveD r (sextByte (low8 (t.d r))) 1 t) := by
  have h : (andThen (loadZeroByteToD ea r n s) fun t => moveD r (sextByte (low8 (t.d r))) 1 t) =
      Sys2Proof.Machine.load8 ea s fun b t => .next
        ((((t.setD r (zextByte b)).advance n).setD r
          (sextByte (low8 (((t.setD r (zextByte b)).advance n).d r)))).advance 1) := by
    unfold loadZeroByteToD Sys2Proof.Machine.load8
    split <;> rfl
  rw [h]
  exact .load8 ea _

/-- Every instruction but RTI, which loads twice, has one of the shapes, with the accesses loadOf and storeOf give. -/
theorem exec_accessShape (s : State) (i : Instr) (h : i ≠ .rti) :
    AccessShape s (loadOf s i) (storeOf s i) (exec i s) := by
  have loadD : ∀ ea r, AccessShape s (some (ea, 2)) none (loadWordToD ea r i.length s) := fun ea r => .load16 ea _
  have loadPD : ∀ ea r, AccessShape s (some (ea, 3)) none (loadPtrToD ea r i.length s) := fun ea r => .load24 ea _
  have loadPA : ∀ ea r, AccessShape s (some (ea, 3)) none (loadPtrToA ea r i.length s) := fun ea r => .load24 ea _
  have loadSB : ∀ ea r, AccessShape s (some (ea, 1)) none (loadSignedByteToD ea r i.length s) := fun ea r => .load8 ea _
  have loadZB : ∀ ea r, AccessShape s (some (ea, 1)) none (loadZeroByteToD ea r i.length s) := fun ea r => .load8 ea _
  have storeW : ∀ ea v, AccessShape s none (some (ea, twoBytes v)) (storeWord ea v i.length s) := fun ea v => by
    rw [storeWord, le16_low16]; exact .store ea _ _ fun _ => rfl
  have storeP : ∀ ea v, AccessShape s none (some (ea, threeBytes v)) (storePtr ea v i.length s) := fun ea v =>
    .store ea (threeBytes v) (fun t => t.advance i.length) fun _ => rfl
  have storeB : ∀ ea v, AccessShape s none (some (ea, [v.extractLsb' 0 8])) (storeByte ea v i.length s) := fun ea v =>
    .store ea [v.extractLsb' 0 8] (fun t => t.advance i.length) fun _ => rfl
  have call : ∀ tg, AccessShape s none (some (s.a3 - 4, threeBytes (s.nextPc i.length)))
      (callSubroutine tg i.length s) := fun tg =>
    .store (s.a3 - 4) (threeBytes (s.nextPc i.length)) (fun t => (t.setA .a3 (s.a3 - 4)).jump tg) fun _ => rfl
  cases i
  case rti => exact absurd rfl h
  case movIndAm n m =>
    rw [show loadOf s (.movIndAm n m) = some (s.eaD8 0 n, 3) by rw [eaD8_zero]; rfl]; exact loadPA _ _
  case movAmInd m n =>
    rw [show storeOf s (.movAmInd m n) = some (s.eaD8 0 n, threeBytes (s.a m)) by rw [eaD8_zero]; rfl]
    exact storeP _ _
  case divuDnDm n m =>
    show AccessShape s none none (execDivuDnDm n m s)
    unfold execDivuDnDm
    split <;> exact .plain _
  case bsetDmInd m n => exact .modify (fun b => b ||| low8 (s.d m)) (low8 (s.d m)) (s.eaInd n) 2
  case bclrDmInd m n => exact .modify (fun b => b &&& ~~~low8 (s.d m)) (low8 (s.d m)) (s.eaInd n) 2
  case rts => exact .load24 s.a3 fun target t => (t.setA .a3 (s.a3 + 4)).jump target
  case movbIndDm n m => exact accessShape_loadThenExtend _ _ _ _
  case movbAbs16Dn n m => exact accessShape_loadThenExtend _ _ _ _
  all_goals first
    | exact loadD _ _
    | exact loadPD _ _
    | exact loadPA _ _
    | exact loadSB _ _
    | exact loadZB _ _
    | exact storeW _ _
    | exact storeP _ _
    | exact storeB _ _
    | exact call _
    | exact .plain _

/-- The storing forms are exactly those that storeOf gives a store. -/
theorem storeOf_isSome (s : State) (i : Instr) : (storeOf s i).isSome = storesToMemory i := by
  cases i <;> rfl

end Sys2Proof.Machine
end

