-- ==== Sys2Proof/Laws/Fetch.lean ====
section
/-! SUPPORT. What a fetch can do, said once: it runs an instruction from a state that differs in the count of draws only;
and what one step can do. -/

namespace Sys2Proof.Machine

variable {s t : State}

theorem State.consume_consume (s : State) (m n : Nat) : (s.consume m).consume n = s.consume (m + n) := by
  simp [State.consume, Nat.add_assoc]

theorem fetchByte_next {a : Nat} {k : Byte → State → Result} (h : fetchByte a s k = .next t) :
    ∃ b n, k b (s.consume n) = .next t := by
  unfold fetchByte at h
  split at h
  · cases h
  · exact ⟨_, _, h⟩
  · split at h
    · exact ⟨_, _, h⟩
    · exact ⟨_, 0, h⟩

theorem fetchFrom_next {fuel : Nat} {acc : List Byte} {k : Instr → State → Result}
    (h : fetchFrom fuel acc s k = .next t) : ∃ i n, k i (s.consume n) = .next t := by
  induction fuel generalizing acc s with
  | zero => cases h
  | succ fuel ih =>
    unfold fetchFrom at h
    split at h
    · exact ⟨_, 0, h⟩
    · cases h
    · obtain ⟨b, n, h⟩ := fetchByte_next h
      obtain ⟨i, m, h⟩ := ih h
      exact ⟨i, n + m, by rwa [State.consume_consume] at h⟩

theorem runInstruction_next (h : runInstruction s = .next t) : ∃ i n, exec i (s.consume n) = .next t :=
  fetchFrom_next h

/-- Placing code keeps memory canonical. -/
theorem placeCode_wf {ea : Ptr} {bs : List Byte} (h : Memory.wf s.mem = true) :
    Memory.wf (State.placeCode s ea bs).mem = true := by
  induction bs generalizing s ea with
  | nil => exact h
  | cons b bs ih => exact ih (Memory.wf_write h b ea.isLt)

/-- A step runs one instruction, enters an interrupt or resets; the state it starts from differs from `s` in the events
left and, for an instruction, in the count of draws. -/
theorem step_next (h : step s = .next t) :
    ∃ es, (∃ i n, exec i ({ s with events := es }.consume n) = .next t) ∨
      (∃ l, acceptsMaskable s.platform s.psw l = true ∧ enterMaskable l { s with events := es } = .next t) ∨
      enterNonMaskable { s with events := es } = .next t ∨ t = resetProcessor { s with events := es } := by
  unfold step nextStep at h
  split at h
  · next he =>
    have hs : { s with events := [] } = s := by cases s; simp_all
    exact ⟨[], Or.inl (by rw [hs]; exact runInstruction_next h)⟩
  · next e es he =>
    refine ⟨es, ?_⟩
    cases e with
    | quiet => exact Or.inl (runInstruction_next h)
    | maskable l =>
      simp only [takeEvent] at h
      split at h
      · next hacc => exact Or.inr (Or.inl ⟨l, hacc, h⟩)
      · exact Or.inl (runInstruction_next h)
    | nonMaskable => exact Or.inr (Or.inr (Or.inl h))
    | reset => exact Or.inr (Or.inr (Or.inr (next_inj h).symm))

end Sys2Proof.Machine
end

