-- ==== Sys2Proof/Laws/PerInstr.lean ====
section
/-! SUPPORT. A family of facts about the instructions as syntax, one lemma per constructor. -/

namespace Sys2Proof.Laws.EncodeLength

/-- The encoder writes as many bytes as the instruction is long, and that is 1 to 5 (R60). -/
def Statement (i : Instr) : Prop := (encode i).length = i.length ∧ 1 ≤ i.length ∧ i.length ≤ 5

theorem movDmAn (m : DReg) (n : AReg) : Statement (.movDmAn m n) := ⟨rfl, Nat.le_of_ble_eq_true rfl, Nat.le_of_ble_eq_true rfl⟩
theorem movAnDm (n : AReg) (m : DReg) : Statement (.movAnDm n m) := ⟨rfl, Nat.le_of_ble_eq_true rfl, Nat.le_of_ble_eq_true rfl⟩
theorem movDnDm (n m : DReg) : Statement (.movDnDm n m) := ⟨rfl, Nat.le_of_ble_eq_true rfl, Nat.le_of_ble_eq_true rfl⟩
theorem movAnAm (n m : AReg) : Statement (.movAnAm n m) := ⟨rfl, Nat.le_of_ble_eq_true rfl, Nat.le_of_ble_eq_true rfl⟩
theorem movPswDn (n : DReg) : Statement (.movPswDn n) := ⟨rfl, Nat.le_of_ble_eq_true rfl, Nat.le_of_ble_eq_true rfl⟩
theorem movDnPsw (n : DReg) : Statement (.movDnPsw n) := ⟨rfl, Nat.le_of_ble_eq_true rfl, Nat.le_of_ble_eq_true rfl⟩
theorem movMdrDn (n : DReg) : Statement (.movMdrDn n) := ⟨rfl, Nat.le_of_ble_eq_true rfl, Nat.le_of_ble_eq_true rfl⟩
theorem movDnMdr (n : DReg) : Statement (.movDnMdr n) := ⟨rfl, Nat.le_of_ble_eq_true rfl, Nat.le_of_ble_eq_true rfl⟩
theorem movIndDm (n : AReg) (m : DReg) : Statement (.movIndDm n m) := ⟨rfl, Nat.le_of_ble_eq_true rfl, Nat.le_of_ble_eq_true rfl⟩
theorem movD8Dm (d : Byte) (n : AReg) (m : DReg) : Statement (.movD8Dm d n m) := ⟨rfl, Nat.le_of_ble_eq_true rfl, Nat.le_of_ble_eq_true rfl⟩
theorem movD16Dm (d : Word) (n : AReg) (m : DReg) : Statement (.movD16Dm d n m) := ⟨rfl, Nat.le_of_ble_eq_true rfl, Nat.le_of_ble_eq_true rfl⟩
theorem movD24Dm (d : Ptr) (n : AReg) (m : DReg) : Statement (.movD24Dm d n m) := ⟨rfl, Nat.le_of_ble_eq_true rfl, Nat.le_of_ble_eq_true rfl⟩
theorem movIdxDm (x : DReg) (n : AReg) (m : DReg) : Statement (.movIdxDm x n m) := ⟨rfl, Nat.le_of_ble_eq_true rfl, Nat.le_of_ble_eq_true rfl⟩
theorem movAbs16Dn (addr : Word) (n : DReg) : Statement (.movAbs16Dn addr n) := ⟨rfl, Nat.le_of_ble_eq_true rfl, Nat.le_of_ble_eq_true rfl⟩
theorem movAbs24Dn (addr : Ptr) (n : DReg) : Statement (.movAbs24Dn addr n) := ⟨rfl, Nat.le_of_ble_eq_true rfl, Nat.le_of_ble_eq_true rfl⟩
theorem movD8Am (d : Byte) (n m : AReg) : Statement (.movD8Am d n m) := ⟨rfl, Nat.le_of_ble_eq_true rfl, Nat.le_of_ble_eq_true rfl⟩
theorem movD16Am (d : Word) (n m : AReg) : Statement (.movD16Am d n m) := ⟨rfl, Nat.le_of_ble_eq_true rfl, Nat.le_of_ble_eq_true rfl⟩
theorem movD24Am (d : Ptr) (n m : AReg) : Statement (.movD24Am d n m) := ⟨rfl, Nat.le_of_ble_eq_true rfl, Nat.le_of_ble_eq_true rfl⟩
theorem movAbs16An (addr : Word) (n : AReg) : Statement (.movAbs16An addr n) := ⟨rfl, Nat.le_of_ble_eq_true rfl, Nat.le_of_ble_eq_true rfl⟩
theorem movAbs24An (addr : Ptr) (n : AReg) : Statement (.movAbs24An addr n) := ⟨rfl, Nat.le_of_ble_eq_true rfl, Nat.le_of_ble_eq_true rfl⟩
theorem movDmInd (m : DReg) (n : AReg) : Statement (.movDmInd m n) := ⟨rfl, Nat.le_of_ble_eq_true rfl, Nat.le_of_ble_eq_true rfl⟩
theorem movDmD8 (m : DReg) (d : Byte) (n : AReg) : Statement (.movDmD8 m d n) := ⟨rfl, Nat.le_of_ble_eq_true rfl, Nat.le_of_ble_eq_true rfl⟩
theorem movDmD16 (m : DReg) (d : Word) (n : AReg) : Statement (.movDmD16 m d n) := ⟨rfl, Nat.le_of_ble_eq_true rfl, Nat.le_of_ble_eq_true rfl⟩
theorem movDmD24 (m : DReg) (d : Ptr) (n : AReg) : Statement (.movDmD24 m d n) := ⟨rfl, Nat.le_of_ble_eq_true rfl, Nat.le_of_ble_eq_true rfl⟩
theorem movDmIdx (m x : DReg) (n : AReg) : Statement (.movDmIdx m x n) := ⟨rfl, Nat.le_of_ble_eq_true rfl, Nat.le_of_ble_eq_true rfl⟩
theorem movDnAbs16 (n : DReg) (addr : Word) : Statement (.movDnAbs16 n addr) := ⟨rfl, Nat.le_of_ble_eq_true rfl, Nat.le_of_ble_eq_true rfl⟩
theorem movDnAbs24 (n : DReg) (addr : Ptr) : Statement (.movDnAbs24 n addr) := ⟨rfl, Nat.le_of_ble_eq_true rfl, Nat.le_of_ble_eq_true rfl⟩
theorem movAmD8 (m : AReg) (d : Byte) (n : AReg) : Statement (.movAmD8 m d n) := ⟨rfl, Nat.le_of_ble_eq_true rfl, Nat.le_of_ble_eq_true rfl⟩
theorem movAmD16 (m : AReg) (d : Word) (n : AReg) : Statement (.movAmD16 m d n) := ⟨rfl, Nat.le_of_ble_eq_true rfl, Nat.le_of_ble_eq_true rfl⟩
theorem movAmD24 (m : AReg) (d : Ptr) (n : AReg) : Statement (.movAmD24 m d n) := ⟨rfl, Nat.le_of_ble_eq_true rfl, Nat.le_of_ble_eq_true rfl⟩
theorem movAnAbs16 (n : AReg) (addr : Word) : Statement (.movAnAbs16 n addr) := ⟨rfl, Nat.le_of_ble_eq_true rfl, Nat.le_of_ble_eq_true rfl⟩
theorem movAnAbs24 (n : AReg) (addr : Ptr) : Statement (.movAnAbs24 n addr) := ⟨rfl, Nat.le_of_ble_eq_true rfl, Nat.le_of_ble_eq_true rfl⟩
theorem movImm8Dn (imm : Byte) (n : DReg) : Statement (.movImm8Dn imm n) := ⟨rfl, Nat.le_of_ble_eq_true rfl, Nat.le_of_ble_eq_true rfl⟩
theorem movImm16Dn (imm : Word) (n : DReg) : Statement (.movImm16Dn imm n) := ⟨rfl, Nat.le_of_ble_eq_true rfl, Nat.le_of_ble_eq_true rfl⟩
theorem movImm24Dn (imm : Ptr) (n : DReg) : Statement (.movImm24Dn imm n) := ⟨rfl, Nat.le_of_ble_eq_true rfl, Nat.le_of_ble_eq_true rfl⟩
theorem movImm16An (imm : Word) (n : AReg) : Statement (.movImm16An imm n) := ⟨rfl, Nat.le_of_ble_eq_true rfl, Nat.le_of_ble_eq_true rfl⟩
theorem movImm24An (imm : Ptr) (n : AReg) : Statement (.movImm24An imm n) := ⟨rfl, Nat.le_of_ble_eq_true rfl, Nat.le_of_ble_eq_true rfl⟩
theorem movxD8Dm (d : Byte) (n : AReg) (m : DReg) : Statement (.movxD8Dm d n m) := ⟨rfl, Nat.le_of_ble_eq_true rfl, Nat.le_of_ble_eq_true rfl⟩
theorem movxD16Dm (d : Word) (n : AReg) (m : DReg) : Statement (.movxD16Dm d n m) := ⟨rfl, Nat.le_of_ble_eq_true rfl, Nat.le_of_ble_eq_true rfl⟩
theorem movxD24Dm (d : Ptr) (n : AReg) (m : DReg) : Statement (.movxD24Dm d n m) := ⟨rfl, Nat.le_of_ble_eq_true rfl, Nat.le_of_ble_eq_true rfl⟩
theorem movxDmD8 (m : DReg) (d : Byte) (n : AReg) : Statement (.movxDmD8 m d n) := ⟨rfl, Nat.le_of_ble_eq_true rfl, Nat.le_of_ble_eq_true rfl⟩
theorem movxDmD16 (m : DReg) (d : Word) (n : AReg) : Statement (.movxDmD16 m d n) := ⟨rfl, Nat.le_of_ble_eq_true rfl, Nat.le_of_ble_eq_true rfl⟩
theorem movxDmD24 (m : DReg) (d : Ptr) (n : AReg) : Statement (.movxDmD24 m d n) := ⟨rfl, Nat.le_of_ble_eq_true rfl, Nat.le_of_ble_eq_true rfl⟩
theorem movbD8Dm (d : Byte) (n : AReg) (m : DReg) : Statement (.movbD8Dm d n m) := ⟨rfl, Nat.le_of_ble_eq_true rfl, Nat.le_of_ble_eq_true rfl⟩
theorem movbD16Dm (d : Word) (n : AReg) (m : DReg) : Statement (.movbD16Dm d n m) := ⟨rfl, Nat.le_of_ble_eq_true rfl, Nat.le_of_ble_eq_true rfl⟩
theorem movbD24Dm (d : Ptr) (n : AReg) (m : DReg) : Statement (.movbD24Dm d n m) := ⟨rfl, Nat.le_of_ble_eq_true rfl, Nat.le_of_ble_eq_true rfl⟩
theorem movbIdxDm (x : DReg) (n : AReg) (m : DReg) : Statement (.movbIdxDm x n m) := ⟨rfl, Nat.le_of_ble_eq_true rfl, Nat.le_of_ble_eq_true rfl⟩
theorem movbAbs24Dn (addr : Ptr) (n : DReg) : Statement (.movbAbs24Dn addr n) := ⟨rfl, Nat.le_of_ble_eq_true rfl, Nat.le_of_ble_eq_true rfl⟩
theorem movbDmInd (m : DReg) (n : AReg) : Statement (.movbDmInd m n) := ⟨rfl, Nat.le_of_ble_eq_true rfl, Nat.le_of_ble_eq_true rfl⟩
theorem movbDmD8 (m : DReg) (d : Byte) (n : AReg) : Statement (.movbDmD8 m d n) := ⟨rfl, Nat.le_of_ble_eq_true rfl, Nat.le_of_ble_eq_true rfl⟩
theorem movbDmD16 (m : DReg) (d : Word) (n : AReg) : Statement (.movbDmD16 m d n) := ⟨rfl, Nat.le_of_ble_eq_true rfl, Nat.le_of_ble_eq_true rfl⟩
theorem movbDmD24 (m : DReg) (d : Ptr) (n : AReg) : Statement (.movbDmD24 m d n) := ⟨rfl, Nat.le_of_ble_eq_true rfl, Nat.le_of_ble_eq_true rfl⟩
theorem movbDmIdx (m x : DReg) (n : AReg) : Statement (.movbDmIdx m x n) := ⟨rfl, Nat.le_of_ble_eq_true rfl, Nat.le_of_ble_eq_true rfl⟩
theorem movbDnAbs16 (n : DReg) (addr : Word) : Statement (.movbDnAbs16 n addr) := ⟨rfl, Nat.le_of_ble_eq_true rfl, Nat.le_of_ble_eq_true rfl⟩
theorem movbDnAbs24 (n : DReg) (addr : Ptr) : Statement (.movbDnAbs24 n addr) := ⟨rfl, Nat.le_of_ble_eq_true rfl, Nat.le_of_ble_eq_true rfl⟩
theorem movbuIndDm (n : AReg) (m : DReg) : Statement (.movbuIndDm n m) := ⟨rfl, Nat.le_of_ble_eq_true rfl, Nat.le_of_ble_eq_true rfl⟩
theorem movbuD8Dm (d : Byte) (n : AReg) (m : DReg) : Statement (.movbuD8Dm d n m) := ⟨rfl, Nat.le_of_ble_eq_true rfl, Nat.le_of_ble_eq_true rfl⟩
theorem movbuD16Dm (d : Word) (n : AReg) (m : DReg) : Statement (.movbuD16Dm d n m) := ⟨rfl, Nat.le_of_ble_eq_true rfl, Nat.le_of_ble_eq_true rfl⟩
theorem movbuD24Dm (d : Ptr) (n : AReg) (m : DReg) : Statement (.movbuD24Dm d n m) := ⟨rfl, Nat.le_of_ble_eq_true rfl, Nat.le_of_ble_eq_true rfl⟩
theorem movbuIdxDm (x : DReg) (n : AReg) (m : DReg) : Statement (.movbuIdxDm x n m) := ⟨rfl, Nat.le_of_ble_eq_true rfl, Nat.le_of_ble_eq_true rfl⟩
theorem movbuAbs16Dn (addr : Word) (n : DReg) : Statement (.movbuAbs16Dn addr n) := ⟨rfl, Nat.le_of_ble_eq_true rfl, Nat.le_of_ble_eq_true rfl⟩
theorem movbuAbs24Dn (addr : Ptr) (n : DReg) : Statement (.movbuAbs24Dn addr n) := ⟨rfl, Nat.le_of_ble_eq_true rfl, Nat.le_of_ble_eq_true rfl⟩
theorem extDn (n : DReg) : Statement (.extDn n) := ⟨rfl, Nat.le_of_ble_eq_true rfl, Nat.le_of_ble_eq_true rfl⟩
theorem extxDn (n : DReg) : Statement (.extxDn n) := ⟨rfl, Nat.le_of_ble_eq_true rfl, Nat.le_of_ble_eq_true rfl⟩
theorem extxuDn (n : DReg) : Statement (.extxuDn n) := ⟨rfl, Nat.le_of_ble_eq_true rfl, Nat.le_of_ble_eq_true rfl⟩
theorem extxbDn (n : DReg) : Statement (.extxbDn n) := ⟨rfl, Nat.le_of_ble_eq_true rfl, Nat.le_of_ble_eq_true rfl⟩
theorem extxbuDn (n : DReg) : Statement (.extxbuDn n) := ⟨rfl, Nat.le_of_ble_eq_true rfl, Nat.le_of_ble_eq_true rfl⟩
theorem addDnDm (n m : DReg) : Statement (.addDnDm n m) := ⟨rfl, Nat.le_of_ble_eq_true rfl, Nat.le_of_ble_eq_true rfl⟩
theorem addDmAn (m : DReg) (n : AReg) : Statement (.addDmAn m n) := ⟨rfl, Nat.le_of_ble_eq_true rfl, Nat.le_of_ble_eq_true rfl⟩
theorem addAnDm (n : AReg) (m : DReg) : Statement (.addAnDm n m) := ⟨rfl, Nat.le_of_ble_eq_true rfl, Nat.le_of_ble_eq_true rfl⟩
theorem addAnAm (n m : AReg) : Statement (.addAnAm n m) := ⟨rfl, Nat.le_of_ble_eq_true rfl, Nat.le_of_ble_eq_true rfl⟩
theorem addImm8Dn (imm : Byte) (n : DReg) : Statement (.addImm8Dn imm n) := ⟨rfl, Nat.le_of_ble_eq_true rfl, Nat.le_of_ble_eq_true rfl⟩
theorem addImm16Dn (imm : Word) (n : DReg) : Statement (.addImm16Dn imm n) := ⟨rfl, Nat.le_of_ble_eq_true rfl, Nat.le_of_ble_eq_true rfl⟩
theorem addImm24Dn (imm : Ptr) (n : DReg) : Statement (.addImm24Dn imm n) := ⟨rfl, Nat.le_of_ble_eq_true rfl, Nat.le_of_ble_eq_true rfl⟩
theorem addImm8An (imm : Byte) (n : AReg) : Statement (.addImm8An imm n) := ⟨rfl, Nat.le_of_ble_eq_true rfl, Nat.le_of_ble_eq_true rfl⟩
theorem addImm16An (imm : Word) (n : AReg) : Statement (.addImm16An imm n) := ⟨rfl, Nat.le_of_ble_eq_true rfl, Nat.le_of_ble_eq_true rfl⟩
theorem addImm24An (imm : Ptr) (n : AReg) : Statement (.addImm24An imm n) := ⟨rfl, Nat.le_of_ble_eq_true rfl, Nat.le_of_ble_eq_true rfl⟩
theorem addcDnDm (n m : DReg) : Statement (.addcDnDm n m) := ⟨rfl, Nat.le_of_ble_eq_true rfl, Nat.le_of_ble_eq_true rfl⟩
theorem addnfImm8An (imm : Byte) (n : AReg) : Statement (.addnfImm8An imm n) := ⟨rfl, Nat.le_of_ble_eq_true rfl, Nat.le_of_ble_eq_true rfl⟩
theorem subDnDm (n m : DReg) : Statement (.subDnDm n m) := ⟨rfl, Nat.le_of_ble_eq_true rfl, Nat.le_of_ble_eq_true rfl⟩
theorem subDmAn (m : DReg) (n : AReg) : Statement (.subDmAn m n) := ⟨rfl, Nat.le_of_ble_eq_true rfl, Nat.le_of_ble_eq_true rfl⟩
theorem subAnDm (n : AReg) (m : DReg) : Statement (.subAnDm n m) := ⟨rfl, Nat.le_of_ble_eq_true rfl, Nat.le_of_ble_eq_true rfl⟩
theorem subAnAm (n m : AReg) : Statement (.subAnAm n m) := ⟨rfl, Nat.le_of_ble_eq_true rfl, Nat.le_of_ble_eq_true rfl⟩
theorem subImm16Dn (imm : Word) (n : DReg) : Statement (.subImm16Dn imm n) := ⟨rfl, Nat.le_of_ble_eq_true rfl, Nat.le_of_ble_eq_true rfl⟩
theorem subImm24Dn (imm : Ptr) (n : DReg) : Statement (.subImm24Dn imm n) := ⟨rfl, Nat.le_of_ble_eq_true rfl, Nat.le_of_ble_eq_true rfl⟩
theorem subImm16An (imm : Word) (n : AReg) : Statement (.subImm16An imm n) := ⟨rfl, Nat.le_of_ble_eq_true rfl, Nat.le_of_ble_eq_true rfl⟩
theorem subImm24An (imm : Ptr) (n : AReg) : Statement (.subImm24An imm n) := ⟨rfl, Nat.le_of_ble_eq_true rfl, Nat.le_of_ble_eq_true rfl⟩
theorem subcDnDm (n m : DReg) : Statement (.subcDnDm n m) := ⟨rfl, Nat.le_of_ble_eq_true rfl, Nat.le_of_ble_eq_true rfl⟩
theorem mulDnDm (n m : DReg) : Statement (.mulDnDm n m) := ⟨rfl, Nat.le_of_ble_eq_true rfl, Nat.le_of_ble_eq_true rfl⟩
theorem muluDnDm (n m : DReg) : Statement (.muluDnDm n m) := ⟨rfl, Nat.le_of_ble_eq_true rfl, Nat.le_of_ble_eq_true rfl⟩
theorem divuDnDm (n m : DReg) : Statement (.divuDnDm n m) := ⟨rfl, Nat.le_of_ble_eq_true rfl, Nat.le_of_ble_eq_true rfl⟩
theorem cmpDnDm (n m : DReg) : Statement (.cmpDnDm n m) := ⟨rfl, Nat.le_of_ble_eq_true rfl, Nat.le_of_ble_eq_true rfl⟩
theorem cmpDmAn (m : DReg) (n : AReg) : Statement (.cmpDmAn m n) := ⟨rfl, Nat.le_of_ble_eq_true rfl, Nat.le_of_ble_eq_true rfl⟩
theorem cmpAnDm (n : AReg) (m : DReg) : Statement (.cmpAnDm n m) := ⟨rfl, Nat.le_of_ble_eq_true rfl, Nat.le_of_ble_eq_true rfl⟩
theorem cmpAnAm (n m : AReg) : Statement (.cmpAnAm n m) := ⟨rfl, Nat.le_of_ble_eq_true rfl, Nat.le_of_ble_eq_true rfl⟩
theorem cmpImm8Dn (imm : Byte) (n : DReg) : Statement (.cmpImm8Dn imm n) := ⟨rfl, Nat.le_of_ble_eq_true rfl, Nat.le_of_ble_eq_true rfl⟩
theorem cmpImm16Dn (imm : Word) (n : DReg) : Statement (.cmpImm16Dn imm n) := ⟨rfl, Nat.le_of_ble_eq_true rfl, Nat.le_of_ble_eq_true rfl⟩
theorem cmpImm24Dn (imm : Ptr) (n : DReg) : Statement (.cmpImm24Dn imm n) := ⟨rfl, Nat.le_of_ble_eq_true rfl, Nat.le_of_ble_eq_true rfl⟩
theorem cmpImm16An (imm : Word) (n : AReg) : Statement (.cmpImm16An imm n) := ⟨rfl, Nat.le_of_ble_eq_true rfl, Nat.le_of_ble_eq_true rfl⟩
theorem cmpImm24An (imm : Ptr) (n : AReg) : Statement (.cmpImm24An imm n) := ⟨rfl, Nat.le_of_ble_eq_true rfl, Nat.le_of_ble_eq_true rfl⟩
theorem andDnDm (n m : DReg) : Statement (.andDnDm n m) := ⟨rfl, Nat.le_of_ble_eq_true rfl, Nat.le_of_ble_eq_true rfl⟩
theorem andImm8Dn (imm : Byte) (n : DReg) : Statement (.andImm8Dn imm n) := ⟨rfl, Nat.le_of_ble_eq_true rfl, Nat.le_of_ble_eq_true rfl⟩
theorem andImm16Dn (imm : Word) (n : DReg) : Statement (.andImm16Dn imm n) := ⟨rfl, Nat.le_of_ble_eq_true rfl, Nat.le_of_ble_eq_true rfl⟩
theorem andImm16Psw (imm : Word) : Statement (.andImm16Psw imm) := ⟨rfl, Nat.le_of_ble_eq_true rfl, Nat.le_of_ble_eq_true rfl⟩
theorem orDnDm (n m : DReg) : Statement (.orDnDm n m) := ⟨rfl, Nat.le_of_ble_eq_true rfl, Nat.le_of_ble_eq_true rfl⟩
theorem orImm8Dn (imm : Byte) (n : DReg) : Statement (.orImm8Dn imm n) := ⟨rfl, Nat.le_of_ble_eq_true rfl, Nat.le_of_ble_eq_true rfl⟩
theorem orImm16Dn (imm : Word) (n : DReg) : Statement (.orImm16Dn imm n) := ⟨rfl, Nat.le_of_ble_eq_true rfl, Nat.le_of_ble_eq_true rfl⟩
theorem orImm16Psw (imm : Word) : Statement (.orImm16Psw imm) := ⟨rfl, Nat.le_of_ble_eq_true rfl, Nat.le_of_ble_eq_true rfl⟩
theorem xorDnDm (n m : DReg) : Statement (.xorDnDm n m) := ⟨rfl, Nat.le_of_ble_eq_true rfl, Nat.le_of_ble_eq_true rfl⟩
theorem xorImm16Dn (imm : Word) (n : DReg) : Statement (.xorImm16Dn imm n) := ⟨rfl, Nat.le_of_ble_eq_true rfl, Nat.le_of_ble_eq_true rfl⟩
theorem notDn (n : DReg) : Statement (.notDn n) := ⟨rfl, Nat.le_of_ble_eq_true rfl, Nat.le_of_ble_eq_true rfl⟩
theorem asrDn (n : DReg) : Statement (.asrDn n) := ⟨rfl, Nat.le_of_ble_eq_true rfl, Nat.le_of_ble_eq_true rfl⟩
theorem lsrDn (n : DReg) : Statement (.lsrDn n) := ⟨rfl, Nat.le_of_ble_eq_true rfl, Nat.le_of_ble_eq_true rfl⟩
theorem rorDn (n : DReg) : Statement (.rorDn n) := ⟨rfl, Nat.le_of_ble_eq_true rfl, Nat.le_of_ble_eq_true rfl⟩
theorem rolDn (n : DReg) : Statement (.rolDn n) := ⟨rfl, Nat.le_of_ble_eq_true rfl, Nat.le_of_ble_eq_true rfl⟩
theorem btstImm8Dn (imm : Byte) (n : DReg) : Statement (.btstImm8Dn imm n) := ⟨rfl, Nat.le_of_ble_eq_true rfl, Nat.le_of_ble_eq_true rfl⟩
theorem btstImm16Dn (imm : Word) (n : DReg) : Statement (.btstImm16Dn imm n) := ⟨rfl, Nat.le_of_ble_eq_true rfl, Nat.le_of_ble_eq_true rfl⟩
theorem bsetDmInd (m : DReg) (n : AReg) : Statement (.bsetDmInd m n) := ⟨rfl, Nat.le_of_ble_eq_true rfl, Nat.le_of_ble_eq_true rfl⟩
theorem bclrDmInd (m : DReg) (n : AReg) : Statement (.bclrDmInd m n) := ⟨rfl, Nat.le_of_ble_eq_true rfl, Nat.le_of_ble_eq_true rfl⟩
theorem beq (d : Byte) : Statement (.beq d) := ⟨rfl, Nat.le_of_ble_eq_true rfl, Nat.le_of_ble_eq_true rfl⟩
theorem bne (d : Byte) : Statement (.bne d) := ⟨rfl, Nat.le_of_ble_eq_true rfl, Nat.le_of_ble_eq_true rfl⟩
theorem blt (d : Byte) : Statement (.blt d) := ⟨rfl, Nat.le_of_ble_eq_true rfl, Nat.le_of_ble_eq_true rfl⟩
theorem ble (d : Byte) : Statement (.ble d) := ⟨rfl, Nat.le_of_ble_eq_true rfl, Nat.le_of_ble_eq_true rfl⟩
theorem bge (d : Byte) : Statement (.bge d) := ⟨rfl, Nat.le_of_ble_eq_true rfl, Nat.le_of_ble_eq_true rfl⟩
theorem bgt (d : Byte) : Statement (.bgt d) := ⟨rfl, Nat.le_of_ble_eq_true rfl, Nat.le_of_ble_eq_true rfl⟩
theorem bcs (d : Byte) : Statement (.bcs d) := ⟨rfl, Nat.le_of_ble_eq_true rfl, Nat.le_of_ble_eq_true rfl⟩
theorem bls (d : Byte) : Statement (.bls d) := ⟨rfl, Nat.le_of_ble_eq_true rfl, Nat.le_of_ble_eq_true rfl⟩
theorem bcc (d : Byte) : Statement (.bcc d) := ⟨rfl, Nat.le_of_ble_eq_true rfl, Nat.le_of_ble_eq_true rfl⟩
theorem bhi (d : Byte) : Statement (.bhi d) := ⟨rfl, Nat.le_of_ble_eq_true rfl, Nat.le_of_ble_eq_true rfl⟩
theorem bvc (d : Byte) : Statement (.bvc d) := ⟨rfl, Nat.le_of_ble_eq_true rfl, Nat.le_of_ble_eq_true rfl⟩
theorem bvs (d : Byte) : Statement (.bvs d) := ⟨rfl, Nat.le_of_ble_eq_true rfl, Nat.le_of_ble_eq_true rfl⟩
theorem bnc (d : Byte) : Statement (.bnc d) := ⟨rfl, Nat.le_of_ble_eq_true rfl, Nat.le_of_ble_eq_true rfl⟩
theorem bns (d : Byte) : Statement (.bns d) := ⟨rfl, Nat.le_of_ble_eq_true rfl, Nat.le_of_ble_eq_true rfl⟩
theorem bra (d : Byte) : Statement (.bra d) := ⟨rfl, Nat.le_of_ble_eq_true rfl, Nat.le_of_ble_eq_true rfl⟩
theorem beqx (d : Byte) : Statement (.beqx d) := ⟨rfl, Nat.le_of_ble_eq_true rfl, Nat.le_of_ble_eq_true rfl⟩
theorem bnex (d : Byte) : Statement (.bnex d) := ⟨rfl, Nat.le_of_ble_eq_true rfl, Nat.le_of_ble_eq_true rfl⟩
theorem bltx (d : Byte) : Statement (.bltx d) := ⟨rfl, Nat.le_of_ble_eq_true rfl, Nat.le_of_ble_eq_true rfl⟩
theorem blex (d : Byte) : Statement (.blex d) := ⟨rfl, Nat.le_of_ble_eq_true rfl, Nat.le_of_ble_eq_true rfl⟩
theorem bgex (d : Byte) : Statement (.bgex d) := ⟨rfl, Nat.le_of_ble_eq_true rfl, Nat.le_of_ble_eq_true rfl⟩
theorem bgtx (d : Byte) : Statement (.bgtx d) := ⟨rfl, Nat.le_of_ble_eq_true rfl, Nat.le_of_ble_eq_true rfl⟩
theorem bcsx (d : Byte) : Statement (.bcsx d) := ⟨rfl, Nat.le_of_ble_eq_true rfl, Nat.le_of_ble_eq_true rfl⟩
theorem blsx (d : Byte) : Statement (.blsx d) := ⟨rfl, Nat.le_of_ble_eq_true rfl, Nat.le_of_ble_eq_true rfl⟩
theorem bccx (d : Byte) : Statement (.bccx d) := ⟨rfl, Nat.le_of_ble_eq_true rfl, Nat.le_of_ble_eq_true rfl⟩
theorem bhix (d : Byte) : Statement (.bhix d) := ⟨rfl, Nat.le_of_ble_eq_true rfl, Nat.le_of_ble_eq_true rfl⟩
theorem bvcx (d : Byte) : Statement (.bvcx d) := ⟨rfl, Nat.le_of_ble_eq_true rfl, Nat.le_of_ble_eq_true rfl⟩
theorem bvsx (d : Byte) : Statement (.bvsx d) := ⟨rfl, Nat.le_of_ble_eq_true rfl, Nat.le_of_ble_eq_true rfl⟩
theorem bncx (d : Byte) : Statement (.bncx d) := ⟨rfl, Nat.le_of_ble_eq_true rfl, Nat.le_of_ble_eq_true rfl⟩
theorem bnsx (d : Byte) : Statement (.bnsx d) := ⟨rfl, Nat.le_of_ble_eq_true rfl, Nat.le_of_ble_eq_true rfl⟩
theorem jmpLabel16 (d : Word) : Statement (.jmpLabel16 d) := ⟨rfl, Nat.le_of_ble_eq_true rfl, Nat.le_of_ble_eq_true rfl⟩
theorem jmpLabel24 (d : Ptr) : Statement (.jmpLabel24 d) := ⟨rfl, Nat.le_of_ble_eq_true rfl, Nat.le_of_ble_eq_true rfl⟩
theorem jmpInd (n : AReg) : Statement (.jmpInd n) := ⟨rfl, Nat.le_of_ble_eq_true rfl, Nat.le_of_ble_eq_true rfl⟩
theorem jsrLabel16 (d : Word) : Statement (.jsrLabel16 d) := ⟨rfl, Nat.le_of_ble_eq_true rfl, Nat.le_of_ble_eq_true rfl⟩
theorem jsrLabel24 (d : Ptr) : Statement (.jsrLabel24 d) := ⟨rfl, Nat.le_of_ble_eq_true rfl, Nat.le_of_ble_eq_true rfl⟩
theorem jsrInd (n : AReg) : Statement (.jsrInd n) := ⟨rfl, Nat.le_of_ble_eq_true rfl, Nat.le_of_ble_eq_true rfl⟩
theorem nop : Statement (.nop) := ⟨rfl, Nat.le_of_ble_eq_true rfl, Nat.le_of_ble_eq_true rfl⟩
theorem rts : Statement (.rts) := ⟨rfl, Nat.le_of_ble_eq_true rfl, Nat.le_of_ble_eq_true rfl⟩
theorem rti : Statement (.rti) := ⟨rfl, Nat.le_of_ble_eq_true rfl, Nat.le_of_ble_eq_true rfl⟩
theorem movIndAm (n m : AReg) : Statement (.movIndAm n m) := ⟨rfl, Nat.le_of_ble_eq_true rfl, Nat.le_of_ble_eq_true rfl⟩
theorem movAmInd (m n : AReg) : Statement (.movAmInd m n) := ⟨rfl, Nat.le_of_ble_eq_true rfl, Nat.le_of_ble_eq_true rfl⟩
theorem movbIndDm (n : AReg) (m : DReg) : Statement (.movbIndDm n m) := ⟨rfl, Nat.le_of_ble_eq_true rfl, Nat.le_of_ble_eq_true rfl⟩
theorem movbAbs16Dn (addr : Word) (n : DReg) : Statement (.movbAbs16Dn addr n) := ⟨rfl, Nat.le_of_ble_eq_true rfl, Nat.le_of_ble_eq_true rfl⟩

end Sys2Proof.Laws.EncodeLength
end

