-- ==== Sys2Proof/Laws/Results.lean ====
section
/-! SUPPORT. From the state a meaning answers to the statements of Sys2Proof/Safety.lean: one lemma for each of them. In
the first three, `u` is the state before the result and pc are written; it agrees with `s` where the frame says so. -/

namespace Sys2Proof.Machine

variable {i : Instr} {s u : State} {len : Nat}

/-- `u` differs from `s` in PSW, MDR, the count of draws and the list of written addresses at most. -/
structure SameFrame (s u : State) : Prop where
  d : ∀ r, u.d r = s.d r
  a : ∀ r, u.a r = s.a r
  pc : u.pc = s.pc
  mem : u.mem = s.mem
  devOut : u.devOut = s.devOut
  platform : u.platform = s.platform
  events : u.events = s.events

theorem SameFrame.refl (s : State) : SameFrame s s := ⟨fun _ => rfl, fun _ => rfl, rfl, rfl, rfl, rfl, rfl⟩

theorem sameFrame_afterRead (s : State) (ea : Ptr) (n : Nat) : SameFrame s (s.afterRead ea n) :=
  ⟨by simp, by simp, by simp, by simp, by simp, by simp, by simp⟩

theorem sameFrame_setFlags (s : State) (f : ResultFlags) : SameFrame s (s.setFlags f) :=
  ⟨by simp, by simp, rfl, rfl, rfl, rfl, rfl⟩

theorem sameFrame_setLowFlags (s : State) (vf cf nf zf : Bool) : SameFrame s (s.setLowFlags vf cf nf zf) :=
  ⟨by simp, by simp, rfl, rfl, rfl, rfl, rfl⟩

theorem setsD_of {r : DReg} {v : Ptr} {p : Word} (hu : SameFrame s u) (h : exec i s = .next ((u.setD r v).advance len))
    (hl : i.length = len) (hp : u.psw = p) (hm : u.mdr = s.mdr) : SetsD i s r v p := by
  refine ⟨_, h, by simp, by simpa using hp, by simpa using hm, by simp [State.nextPc, hu.pc, hl],
    ⟨fun q hq => ?_, fun q _ => by simp [hu.a]⟩, ⟨fun x _ => by simp [State.byteAt, hu.mem], fun _ => by simpa using hu.devOut⟩,
    by simpa using hu.platform, by simpa using hu.events⟩
  have hq' : q ≠ r := by simpa using hq
  simp [hq', hu.d]

theorem setsA_of {r : AReg} {v : Ptr} {p : Word} (hu : SameFrame s u) (h : exec i s = .next ((u.setA r v).advance len))
    (hl : i.length = len) (hp : u.psw = p) (hm : u.mdr = s.mdr) : SetsA i s r v p := by
  refine ⟨_, h, by simp, by simpa using hp, by simpa using hm, by simp [State.nextPc, hu.pc, hl],
    ⟨fun q _ => by simp [hu.d], fun q hq => ?_⟩, ⟨fun x _ => by simp [State.byteAt, hu.mem], fun _ => by simpa using hu.devOut⟩,
    by simpa using hu.platform, by simpa using hu.events⟩
  have hq' : q ≠ r := by simpa using hq
  simp [hq', hu.a]

theorem setsPswMdr_of {p v : Word} (hu : SameFrame s u) (h : exec i s = .next (u.advance len)) (hl : i.length = len)
    (hp : u.psw = p) (hm : u.mdr = v) : SetsPswMdr i s p v :=
  ⟨_, h, by simpa using hp, by simpa using hm, by simp [State.nextPc, hu.pc, hl],
    ⟨fun q _ => by simp [hu.d], fun q _ => by simp [hu.a]⟩,
    ⟨fun x _ => by simp [State.byteAt, hu.mem], fun _ => by simpa using hu.devOut⟩,
    by simpa using hu.platform, by simpa using hu.events⟩

theorem storesAt_of {ea : Ptr} {bs : List Byte} (hs : s.Inv) (hb : bs.length ≤ 2 ^ 24)
    (h : exec i s = .next ((s.pokeBytes ea bs).advance len)) (hl : i.length = len) : StoresAt i s ea bs s.psw := by
  have hk := pokeBytes_keepsMem s ea bs
  refine ⟨_, h, fun j hj hr => ?_, by simp, by simp, by simp [State.nextPc, hl], ⟨fun q _ => by simp, fun q _ => by simp⟩,
    ⟨fun x hx => ?_, fun hx => ?_⟩, by simp, by simp⟩
  · simpa using pokeBytes_holds hs ea bs hb j hj hr
  · simpa using hk.1 x hx
  · simpa using hk.2 hx

theorem jumpsTo_of {target : Ptr} (h : exec i s = .next (s.jump target)) : JumpsTo i s target := by
  refine ⟨_, h, ?_, ?_, ?_, ⟨?_, ?_⟩, ⟨?_, ?_⟩, ?_, ?_⟩ <;> simp

theorem jumpsTo_of_advance (h : exec i s = .next (s.advance len)) : JumpsTo i s (s.nextPc len) := by
  refine ⟨_, h, ?_, ?_, ?_, ⟨?_, ?_⟩, ⟨?_, ?_⟩, ?_, ?_⟩ <;> simp [State.nextPc]

end Sys2Proof.Machine
end

