-- ==== Sys2Proof/Tests/Slice0.lean ====
section
/-! SUPPORT. Tests: well-formedness, codes written out from the spec,
  single steps of spec/96_derived_vectors.md (their
expected results are the spec's, the states are State.reset with the fields the vector names), and witnesses that the
hypotheses of the statements can be met. -/

namespace Sys2Proof.Tests
open Sys2Proof.Machine

/-! Well-formedness: one ill-formed term for each check -/

theorem test_self_move_is_ill_formed : (Instr.movDnDm .d2 .d2).wellFormed = false := by decide

theorem test_assembler_forms_are_ill_formed :
    [Instr.movIndAm .a3 .a0, .movAmInd .a0 .a3, .movbIndDm .a0 .d1, .movbAbs16Dn 0xF001 .d0].all
      (fun i => !i.wellFormed) = true := by decide

theorem test_move_to_other_register_is_well_formed : (Instr.movDnDm .d0 .d1).wellFormed = true := by decide

/-! Codes -/

/-- The bytes decode to the instruction, and it encodes to them. -/
def isCodeOf (p : List Byte × Instr) : Bool := decide (decode p.1 = .ok p.2 []) && decide (encode p.2 = p.1)

/-- The code of each rule R101 to R121: its worked example where the rule has one,
  else its code expression worked out. -/
def movLoadsWords : List (List Byte × Instr) :=
  [([0xF2, 0x36], .movDmAn .d1 .a2),
   ([0xF2, 0xFC], .movAnDm .a3 .d0),
   ([0x81], .movDnDm .d0 .d1),
   ([0xF2, 0x73], .movAnAm .a0 .a3),
   ([0xF3, 0xF0], .movPswDn .d0),
   ([0xF3, 0xD4], .movDnPsw .d1),
   ([0xF3, 0xE1], .movMdrDn .d1),
   ([0xF3, 0xC8], .movDnMdr .d2),
   ([0x26], .movIndDm .a1 .d2),
   ([0x61, 0x02], .movD8Dm 0x02 .a0 .d1),
   ([0xF7, 0xC4, 0x00, 0x01], .movD16Dm 0x0100 .a1 .d0),
   ([0xF4, 0x83, 0x45, 0x23, 0x01], .movD24Dm 0x012345 .a0 .d3),
   ([0xF1, 0x5B], .movIdxDm .d1 .a2 .d3),
   ([0xC8, 0x00, 0xF0], .movAbs16Dn 0xF000 .d0),
   ([0xF4, 0xC1, 0x44, 0x23, 0x01], .movAbs24Dn 0x012344 .d1),
   ([0x7D, 0x04], .movD8Am 0x04 .a3 .a1),
   ([0xF7, 0xB1, 0x00, 0x02], .movD16Am 0x0200 .a0 .a1),
   ([0xF4, 0xF6, 0x00, 0x00, 0x01], .movD24Am 0x010000 .a1 .a2),
   ([0xF7, 0x30, 0x00, 0xF0], .movAbs16An 0xF000 .a0),
   ([0xF4, 0xD3, 0x40, 0x23, 0x01], .movAbs24An 0x012340 .a3)]

theorem test_movLoads_words_decode_and_encode : movLoadsWords.all isCodeOf = true := by decide

/-- The code of each rule R122 to R134: its worked example where the rule has one,
  else its code expression worked out. -/
def movStoresWords : List (List Byte × Instr) :=
  [([0x00], .movDmInd .d0 .a0),
   ([0x44, 0x02], .movDmD8 .d0 0x02 .a1),
   ([0xF7, 0x80, 0x00, 0x01], .movDmD16 .d0 0x0100 .a0),
   ([0xF4, 0x06, 0x00, 0x00, 0x02], .movDmD24 .d2 0x020000 .a1),
   ([0xF1, 0xD0], .movDmIdx .d0 .d1 .a0),
   ([0xC0, 0x00, 0xF0], .movDnAbs16 .d0 0xF000),
   ([0xF4, 0x43, 0x46, 0x23, 0x01], .movDnAbs24 .d3 0x012346),
   ([0x5E, 0x08], .movAmD8 .a2 0x08 .a3),
   ([0xF7, 0xA1, 0x00, 0x01], .movAmD16 .a1 0x0100 .a0),
   ([0xF4, 0x14, 0x00, 0x00, 0x01], .movAmD24 .a0 0x010000 .a1),
   ([0xF7, 0x21, 0x00, 0xF0], .movAnAbs16 .a1 0xF000),
   ([0xF4, 0x52, 0x40, 0x23, 0x01], .movAnAbs24 .a2 0x012340)]

theorem test_movStores_words_decode_and_encode : movStoresWords.all isCodeOf = true := by decide

/-- The code of each rule R135 to R146: its worked example where the rule has one,
  else its code expression worked out. -/
def movImmediatesWords : List (List Byte × Instr) :=
  [([0x85, 0x08], .movImm8Dn 0x08 .d1),
   ([0xF8, 0x34, 0x12], .movImm16Dn 0x1234 .d0),
   ([0xF4, 0x70, 0x56, 0x34, 0x12], .movImm24Dn 0x123456 .d0),
   ([0xDC, 0x00, 0xF0], .movImm16An 0xF000 .a0),
   ([0xF4, 0x77, 0x00, 0x00, 0x08], .movImm24An 0x080000 .a3),
   ([0xF5, 0x7C, 0x04], .movxD8Dm 0x04 .a3 .d0),
   ([0xF7, 0x71, 0x00, 0x01], .movxD16Dm 0x0100 .a0 .d1),
   ([0xF4, 0xBB, 0x00, 0x00, 0x01], .movxD24Dm 0x010000 .a2 .d3),
   ([0xF5, 0x5E, 0x04], .movxDmD8 .d2 0x04 .a3),
   ([0xF7, 0x61, 0x00, 0x01], .movxDmD16 .d1 0x0100 .a0),
   ([0xF4, 0x3B, 0x00, 0x00, 0x01], .movxDmD24 .d3 0x010000 .a2)]

theorem test_movImmediates_words_decode_and_encode : movImmediatesWords.all isCodeOf = true := by decide

/-- The code of each rule R150 to R162: its worked example where the rule has one,
  else its code expression worked out. -/
def movByteWords : List (List Byte × Instr) :=
  [([0xF5, 0x20, 0x01], .movbD8Dm 0x01 .a0 .d0),
   ([0xF7, 0xD6, 0x01, 0x01], .movbD16Dm 0x0101 .a1 .d2),
   ([0xF4, 0xA0, 0x01, 0x00, 0x01], .movbD24Dm 0x010001 .a0 .d0),
   ([0xF0, 0x50], .movbIdxDm .d1 .a0 .d0),
   ([0xF4, 0xC5, 0x45, 0x23, 0x01], .movbAbs24Dn 0x012345 .d1),
   ([0x11], .movbDmInd .d0 .a1),
   ([0xF5, 0x1C, 0x01], .movbDmD8 .d0 0x01 .a3),
   ([0xF7, 0x91, 0x01, 0x01], .movbDmD16 .d1 0x0101 .a0),
   ([0xF4, 0x26, 0x01, 0x00, 0x01], .movbDmD24 .d2 0x010001 .a1),
   ([0xF0, 0xD4], .movbDmIdx .d0 .d1 .a1),
   ([0xC4, 0x01, 0xFC], .movbDnAbs16 .d0 0xFC01),
   ([0xF4, 0x47, 0x45, 0x23, 0x01], .movbDnAbs24 .d3 0x012345)]

theorem test_movByte_words_decode_and_encode : movByteWords.all isCodeOf = true := by decide

/-- The code of each rule R163 to R174: its worked example where the rule has one,
  else its code expression worked out. -/
def movbuWords : List (List Byte × Instr) :=
  [([0x36], .movbuIndDm .a1 .d2),
   ([0xF5, 0x3C, 0x01], .movbuD8Dm 0x01 .a3 .d0),
   ([0xF7, 0x51, 0x01, 0x01], .movbuD16Dm 0x0101 .a0 .d1),
   ([0xF4, 0x90, 0x01, 0x00, 0x01], .movbuD24Dm 0x010001 .a0 .d0),
   ([0xF0, 0xA7], .movbuIdxDm .d2 .a1 .d3),
   ([0xCD, 0x00, 0xFC], .movbuAbs16Dn 0xFC00 .d1),
   ([0xF4, 0xCA, 0x45, 0x23, 0x01], .movbuAbs24Dn 0x012345 .d2),
   ([0xF3, 0xC1], .extDn .d0),
   ([0xB1], .extxDn .d1),
   ([0xB4], .extxuDn .d0),
   ([0xBA], .extxbDn .d2),
   ([0xBF], .extxbuDn .d3)]

theorem test_movbu_words_decode_and_encode : movbuWords.all isCodeOf = true := by decide

/-- The code of each rule R183 to R194: its worked example where the rule has one,
  else its code expression worked out. -/
def addWords : List (List Byte × Instr) :=
  [([0x94], .addDnDm .d1 .d0),
   ([0xF2, 0x09], .addDmAn .d2 .a1),
   ([0xF2, 0xC1], .addAnDm .a0 .d1),
   ([0xF2, 0x44], .addAnAm .a1 .a0),
   ([0xD4, 0x01], .addImm8Dn 0x01 .d0),
   ([0xF7, 0x19, 0x00, 0x10], .addImm16Dn 0x1000 .d1),
   ([0xF4, 0x62, 0x56, 0x34, 0x12], .addImm24Dn 0x123456 .d2),
   ([0xD0, 0xFE], .addImm8An 0xFE .a0),
   ([0xF7, 0x08, 0x00, 0x01], .addImm16An 0x0100 .a0),
   ([0xF4, 0x67, 0x00, 0x00, 0x01], .addImm24An 0x010000 .a3),
   ([0xF2, 0x8D], .addcDnDm .d3 .d1),
   ([0xF5, 0x0F, 0x10], .addnfImm8An 0x10 .a3)]

theorem test_add_words_decode_and_encode : addWords.all isCodeOf = true := by decide

/-- The code of each rule R195 to R206: its worked example where the rule has one,
  else its code expression worked out. -/
def subMulDivWords : List (List Byte × Instr) :=
  [([0xA0], .subDnDm .d0 .d0),
   ([0xF2, 0x14], .subDmAn .d1 .a0),
   ([0xF2, 0xD1], .subAnDm .a0 .d1),
   ([0xF2, 0x54], .subAnAm .a1 .a0),
   ([0xF7, 0x1C, 0x7F, 0x00], .subImm16Dn 0x007F .d0),
   ([0xF4, 0x69, 0x00, 0x00, 0x01], .subImm24Dn 0x010000 .d1),
   ([0xF7, 0x0C, 0x02, 0x00], .subImm16An 0x0002 .a0),
   ([0xF4, 0x6E, 0x00, 0x00, 0x01], .subImm24An 0x010000 .a2),
   ([0xF2, 0x9D], .subcDnDm .d3 .d1),
   ([0xF3, 0x44], .mulDnDm .d1 .d0),
   ([0xF3, 0x54], .muluDnDm .d1 .d0),
   ([0xF3, 0x64], .divuDnDm .d1 .d0)]

theorem test_subMulDiv_words_decode_and_encode : subMulDivWords.all isCodeOf = true := by decide

/-- The code of each rule R207 to R215: its worked example where the rule has one,
  else its code expression worked out. -/
def cmpWords : List (List Byte × Instr) :=
  [([0xF3, 0x94], .cmpDnDm .d1 .d0),
   ([0xF2, 0x21], .cmpDmAn .d0 .a1),
   ([0xF2, 0xE1], .cmpAnDm .a0 .d1),
   ([0xF2, 0x64], .cmpAnAm .a1 .a0),
   ([0xD8, 0x0A], .cmpImm8Dn 0x0A .d0),
   ([0xF7, 0x49, 0x34, 0x12], .cmpImm16Dn 0x1234 .d1),
   ([0xF4, 0x78, 0x56, 0x34, 0x12], .cmpImm24Dn 0x123456 .d0),
   ([0xEC, 0x00, 0xF0], .cmpImm16An 0xF000 .a0),
   ([0xF4, 0x7F, 0x00, 0x00, 0x08], .cmpImm24An 0x080000 .a3)]

theorem test_cmp_words_decode_and_encode : cmpWords.all isCodeOf = true := by decide

/-- The code of each rule R231 to R245: its worked example where the rule has one,
  else its code expression worked out. -/
def logicWords : List (List Byte × Instr) :=
  [([0xF3, 0x04], .andDnDm .d1 .d0),
   ([0xF5, 0x00, 0xFB], .andImm8Dn 0xFB .d0),
   ([0xF7, 0x00, 0xFB, 0x0F], .andImm16Dn 0x0FFB .d0),
   ([0xF7, 0x10, 0xFF, 0xF7], .andImm16Psw 0xF7FF),
   ([0xF3, 0x14], .orDnDm .d1 .d0),
   ([0xF5, 0x08, 0x04], .orImm8Dn 0x04 .d0),
   ([0xF7, 0x41, 0x00, 0x80], .orImm16Dn 0x8000 .d1),
   ([0xF7, 0x14, 0x04, 0x00], .orImm16Psw 0x0004),
   ([0xF3, 0x24], .xorDnDm .d1 .d0),
   ([0xF7, 0x4E, 0xFF, 0xFF], .xorImm16Dn 0xFFFF .d2),
   ([0xF3, 0xE4], .notDn .d0),
   ([0xF3, 0x38], .asrDn .d0),
   ([0xF3, 0x3D], .lsrDn .d1),
   ([0xF3, 0x34], .rorDn .d0),
   ([0xF3, 0x30], .rolDn .d0)]

theorem test_logic_words_decode_and_encode : logicWords.all isCodeOf = true := by decide

/-- The code of each rule R260 to R263: its worked example where the rule has one,
  else its code expression worked out. -/
def bitWords : List (List Byte × Instr) :=
  [([0xF5, 0x04, 0x05], .btstImm8Dn 0x05 .d0),
   ([0xF7, 0x05, 0x00, 0x80], .btstImm16Dn 0x8000 .d1),
   ([0xF0, 0x29], .bsetDmInd .d1 .a2),
   ([0xF0, 0x39], .bclrDmInd .d1 .a2)]

theorem test_bit_words_decode_and_encode : bitWords.all isCodeOf = true := by decide

/-- The code of each rule R273 to R287: its worked example where the rule has one,
  else its code expression worked out. -/
def branch16Words : List (List Byte × Instr) :=
  [([0xE8, 0x81], .beq 0x81),
   ([0xE9, 0xF6], .bne 0xF6),
   ([0xE0, 0x82], .blt 0x82),
   ([0xE3, 0x83], .ble 0x83),
   ([0xE2, 0xF8], .bge 0xF8),
   ([0xE1, 0x84], .bgt 0x84),
   ([0xE4, 0x85], .bcs 0x85),
   ([0xE7, 0x02], .bls 0x02),
   ([0xE6, 0x86], .bcc 0x86),
   ([0xE5, 0x87], .bhi 0x87),
   ([0xF5, 0xFC, 0x88], .bvc 0x88),
   ([0xF5, 0xFD, 0x89], .bvs 0x89),
   ([0xF5, 0xFE, 0x8A], .bnc 0x8A),
   ([0xF5, 0xFF, 0x8B], .bns 0x8B),
   ([0xEA, 0x8C], .bra 0x8C)]

theorem test_branch16_words_decode_and_encode : branch16Words.all isCodeOf = true := by decide

/-- The code of each rule R288 to R301: its worked example where the rule has one,
  else its code expression worked out. -/
def branchXWords : List (List Byte × Instr) :=
  [([0xF5, 0xE8, 0x8D], .beqx 0x8D),
   ([0xF5, 0xE9, 0x8E], .bnex 0x8E),
   ([0xF5, 0xE0, 0x8F], .bltx 0x8F),
   ([0xF5, 0xE3, 0x90], .blex 0x90),
   ([0xF5, 0xE2, 0x91], .bgex 0x91),
   ([0xF5, 0xE1, 0x92], .bgtx 0x92),
   ([0xF5, 0xE4, 0x93], .bcsx 0x93),
   ([0xF5, 0xE7, 0x94], .blsx 0x94),
   ([0xF5, 0xE6, 0x95], .bccx 0x95),
   ([0xF5, 0xE5, 0x96], .bhix 0x96),
   ([0xF5, 0xEC, 0x97], .bvcx 0x97),
   ([0xF5, 0xED, 0x98], .bvsx 0x98),
   ([0xF5, 0xEE, 0x99], .bncx 0x99),
   ([0xF5, 0xEF, 0x9A], .bnsx 0x9A)]

theorem test_branchX_words_decode_and_encode : branchXWords.all isCodeOf = true := by decide

/-- The code of each rule R302 to R312: its worked example where the rule has one,
  else its code expression worked out. -/
def controlWords : List (List Byte × Instr) :=
  [([0xFC, 0x00, 0x01], .jmpLabel16 0x0100),
   ([0xF4, 0xE0, 0xFB, 0xFF, 0xF7], .jmpLabel24 0xF7FFFB),
   ([0xF0, 0x00], .jmpInd .a0),
   ([0xFD, 0x10, 0x00], .jsrLabel16 0x0010),
   ([0xF4, 0xE1, 0x00, 0x00, 0x01], .jsrLabel24 0x010000),
   ([0xF0, 0x05], .jsrInd .a1),
   ([0xF6], .nop),
   ([0xFE], .rts),
   ([0xEB], .rti)]

theorem test_control_words_decode_and_encode : controlWords.all isCodeOf = true := by decide

/-- The assembler forms stand for the codes of R116, R129, R149 and R154. -/
theorem test_assembler_forms_encode :
    encode (.movIndAm .a3 .a0) = [0x7C, 0x00] ∧ encode (.movAmInd .a0 .a3) = [0x5C, 0x00] ∧
      encode (.movbIndDm .a0 .d1) = [0x31, 0xB9] ∧ encode (.movbAbs16Dn 0xF001 .d0) = [0xCC, 0x01, 0xF0, 0xB8] := by
  decide

/-- Probes of spec/96_derived_vectors.md section 10: UD1, UD6, UD8, UD12, UD18, UD25, UD27, UD35, UD41. -/
theorem test_unassigned_codes :
    [[0xFF], [0xF0, 0x02], [0xF0, 0x0E], [0xF1, 0x3F], [0xF2, 0xA0], [0xF3, 0xC2], [0xF3, 0xD1], [0xF4, 0x48],
      [0xF5, 0x40]].all (fun b => decide (decode b = .undefined)) = true := by decide

/-- The host's numbering: bit 0 is the least significant bit of the first byte. -/
theorem test_decodeTableWord :
    decodeTableWord 40 0x12345670F4 = some (.movImm24Dn 0x123456 .d0) ∧ decodeTableWord 8 0xFF = none := by decide

/-! Single steps -/

/-- One step of the state with these bytes at pc answers a next state with the property. -/
def answers (code : List Byte) (s : State) (p : State → Bool) : Bool :=
  match step (State.placeCode s s.pc code) with
  | .next t => p t
  | .fault _ => false
  | .refused _ => false

/-- One step of the state with these bytes at pc stops with the fault. -/
def stopsAt (code : List Byte) (s : State) (f : Fault) : Bool :=
  match step (State.placeCode s s.pc code) with
  | .next _ => false
  | .fault g => decide (g = f)
  | .refused _ => false

/-- The interrupt vectors take IRQ_ENTRY as x'080100'. -/
def vectorPlatform : Platform :=
  { Platform.bare with
    irqEntry := { level0 := 0x080100, level1 := 0x080100, level2 := 0x080100, level3 := 0x080100,
                  level4 := 0x080100, level5 := 0x080100, level6 := 0x080100, nmi := 0x080100 } }

def vectorState : State := { State.reset with platform := vectorPlatform }

/-- Vector MV1: MOV D1,A2. -/
theorem test_vector_MV1 : answers [0xF2, 0x36]
    { State.reset with d1 := 0x876543, psw := 0x00FF }
    (fun t => t.a2 == 0x876543 && t.psw == 0x00FF && t.pc == 0x080002) = true := by decide

/-- Vector MV3: MOV D0,D1. -/
theorem test_vector_MV3 : answers [0x81]
    { State.reset with d0 := 0x800000, d1 := 0x123456 }
    (fun t => t.d1 == 0x800000 && t.psw == 0x0000 && t.pc == 0x080001) = true := by decide

/-- Vector MV6: MOV D0,PSW. -/
theorem test_vector_MV6 : answers [0xF3, 0xD0]
    { State.reset with d0 := 0xAB3FA5, psw := 0x0000 }
    (fun t => t.psw == 0x3FA5 && t.pc == 0x080002) = true := by decide

/-- Vector MV8: MOV D1,MDR. -/
theorem test_vector_MV8 : answers [0xF3, 0xC4]
    { State.reset with d1 := 0x12ABCD, mdr := 0x0000 }
    (fun t => t.mdr == 0xABCD && t.psw == 0x0000 && t.pc == 0x080002) = true := by decide

/-- Vector MV9: MOV (A0),D1. -/
theorem test_vector_MV9 : answers [0x21]
    { State.reset with a0 := 0x00F010, d1 := 0x555555, mem := [(0x00F011, 0x80)] }
    (fun t => t.d1 == 0xFF8000 && t.psw == 0x0000 && t.pc == 0x080001) = true := by decide

/-- Vector MV13: MOV (-x'1000',A2),D3. -/
theorem test_vector_MV13 : answers [0xF7, 0xCB, 0x00, 0xF0]
    { State.reset with a2 := 0x010020, mem := [(0x00F020, 0x01)] }
    (fun t => t.d3 == 0x000001 && t.psw == 0x0000 && t.pc == 0x080004) = true := by decide

/-- Vector MV14: MOV (x'01F000',A0),D0. -/
theorem test_vector_MV14 : answers [0xF4, 0x80, 0x00, 0xF0, 0x01]
    { State.reset with a0 := 0xFF0020, mem := [(0x00F020, 0xEE), (0x00F021, 0xFF)] }
    (fun t => t.d0 == 0xFFFFEE && t.psw == 0x0000 && t.pc == 0x080005) = true := by decide

/-- Vector MV16: MOV (D1,A0),D2. -/
theorem test_vector_MV16 : answers [0xF1, 0x52]
    { State.reset with d1 := 0xFFFFFE, a0 := 0x00F010, mem := [(0x00F00E, 0x1E), (0x00F00F, 0x9F)] }
    (fun t => t.d2 == 0xFF9F1E && t.psw == 0x0000 && t.pc == 0x080002) = true := by decide

/-- Vector MV19: MOV (4,A3),A2. -/
theorem test_vector_MV19 : answers [0x7E, 0x04]
    { State.reset with a3 := 0x00F100, mem := [(0x00F104, 0x56), (0x00F105, 0x34), (0x00F106, 0x12), (0x00F107,
      0x99)] }
    (fun t => t.a2 == 0x123456 && t.psw == 0x0000 && t.pc == 0x080002) = true := by decide

/-- Vector MV24: MOV D0,(A1). -/
theorem test_vector_MV24 : answers [0x04]
    { State.reset with d0 := 0xAB1234, a1 := 0x00F100, mem := [(0x00F100, 0xFF), (0x00F101, 0xFF), (0x00F102,
      0xFF), (0x00F103, 0xFF)] }
    (fun t => t.psw == 0x0000 && t.pc == 0x080001 && t.byteAt 0x00F100 == 0x34 && t.byteAt 0x00F101 == 0x12 &&
      t.byteAt 0x00F102 == 0xFF) = true := by decide

/-- Vector MV31: MOV A0,(4,A1). -/
theorem test_vector_MV31 : answers [0x54, 0x04]
    { State.reset with a0 := 0x123456, a1 := 0x00F000, mem := [(0x00F004, 0xEE), (0x00F005, 0xEE), (0x00F006,
      0xEE), (0x00F007, 0xEE)] }
    (fun t => t.psw == 0x0000 && t.pc == 0x080002 && t.byteAt 0x00F004 == 0x56 && t.byteAt 0x00F005 == 0x34 &&
      t.byteAt 0x00F006 == 0x12 && t.byteAt 0x00F007 == 0xEE) = true := by decide

/-- Vector MV36: MOV -1,D1. -/
theorem test_vector_MV36 : answers [0x85, 0xFF]
    { State.reset with d1 := 0x123456, psw := 0x000F }
    (fun t => t.d1 == 0xFFFFFF && t.psw == 0x000F && t.pc == 0x080002) = true := by decide

/-- Vector MV39: MOV x'8000',D2. -/
theorem test_vector_MV39 : answers [0xFA, 0x00, 0x80]
    State.reset
    (fun t => t.d2 == 0xFF8000 && t.psw == 0x0000 && t.pc == 0x080003) = true := by decide

/-- Vector MV41: MOV x'f000',A0. -/
theorem test_vector_MV41 : answers [0xDC, 0x00, 0xF0]
    { State.reset with a0 := 0xFFFFFF }
    (fun t => t.a0 == 0x00F000 && t.psw == 0x0000 && t.pc == 0x080003) = true := by decide

/-- Vector MV46: MOV D0,(A1). -/
theorem test_vector_MV46 : stopsAt [0x04] { State.reset with a1 := 0x00F101 } (.misalignedAccess 0x00F101) = true := by decide

/-- Vector MX1: MOVX (8,A3),D2. -/
theorem test_vector_MX1 : answers [0xF5, 0x7E, 0x08]
    { State.reset with a3 := 0x00F100, d2 := 0x111111, mem := [(0x00F108, 0x56), (0x00F109, 0x34), (0x00F10A,
      0x12), (0x00F10B, 0x99)] }
    (fun t => t.d2 == 0x123456 && t.psw == 0x0000 && t.pc == 0x080003) = true := by decide

/-- Vector MX5: MOVX D0,(4,A3). -/
theorem test_vector_MX5 : answers [0xF5, 0x5C, 0x04]
    { State.reset with d0 := 0x876543, a3 := 0x00F100, mem := [(0x00F104, 0xEE), (0x00F105, 0xEE), (0x00F106,
      0xEE), (0x00F107, 0xEE)] }
    (fun t => t.psw == 0x0000 && t.pc == 0x080003 && t.byteAt 0x00F104 == 0x43 && t.byteAt 0x00F105 == 0x65 &&
      t.byteAt 0x00F106 == 0x87 && t.byteAt 0x00F107 == 0xEE) = true := by decide

/-- Vector MB6: MOVB (D1,A0),D2. -/
theorem test_vector_MB6 : answers [0xF0, 0x52]
    { State.reset with d1 := 0x000003, a0 := 0x00F000, mem := [(0x00F003, 0xC3)] }
    (fun t => t.d2 == 0xFFFFC3 && t.psw == 0x0000 && t.pc == 0x080002) = true := by decide

/-- Vector MB10: MOVB D0,(A1). -/
theorem test_vector_MB10 : answers [0x11]
    { State.reset with d0 := 0x1234AB, a1 := 0x00F101, mem := [(0x00F100, 0x11), (0x00F101, 0x22), (0x00F102, 0x33)] }
    (fun t => t.psw == 0x0000 && t.pc == 0x080001 && t.byteAt 0x00F101 == 0xAB &&
      t.byteAt 0x00F102 == 0x33) = true := by decide

/-- Vector MU3: MOVBU (-1,A0),D1. -/
theorem test_vector_MU3 : answers [0xF5, 0x31, 0xFF]
    { State.reset with a0 := 0x00F010, mem := [(0x00F00F, 0xFF)] }
    (fun t => t.d1 == 0x0000FF && t.psw == 0x0000 && t.pc == 0x080003) = true := by decide

/-- Vector EX1: EXT D0. -/
theorem test_vector_EX1 : answers [0xF3, 0xC1]
    { State.reset with d0 := 0x008000, mdr := 0x1234, psw := 0x00FF }
    (fun t => t.mdr == 0xFFFF && t.psw == 0x00FF && t.pc == 0x080002) = true := by decide

/-- Vector EX6: EXTXB D3. -/
theorem test_vector_EX6 : answers [0xBB]
    { State.reset with d3 := 0x123480 }
    (fun t => t.d3 == 0xFFFF80 && t.psw == 0x0000 && t.pc == 0x080001) = true := by decide

/-- Vector AD4: ADD D1,D0. -/
theorem test_vector_AD4 : answers [0x94]
    { State.reset with d0 := 0xFFFFFF, d1 := 0x000001 }
    (fun t => t.d0 == 0x000000 && t.psw == 0x0055 && t.pc == 0x080001) = true := by decide

/-- Vector AD16: ADD 2,A0. -/
theorem test_vector_AD16 : answers [0xD0, 0x02]
    { State.reset with a0 := 0xFFFFFE }
    (fun t => t.a0 == 0x000000 && t.psw == 0x0055 && t.pc == 0x080002) = true := by decide

/-- Vector AD20: ADDC D1,D0. -/
theorem test_vector_AD20 : answers [0xF2, 0x84]
    { State.reset with d0 := 0x001233, d1 := 0x00EDCC, psw := 0x0004 }
    (fun t => t.d0 == 0x010000 && t.psw == 0x0004 && t.pc == 0x080002) = true := by decide

/-- Vector AD24: ADDNF 127,A0. -/
theorem test_vector_AD24 : answers [0xF5, 0x0C, 0x7F]
    { State.reset with a0 := 0xFFFFFF, psw := 0x0000 }
    (fun t => t.a0 == 0x00007E && t.psw == 0x0000 && t.pc == 0x080003) = true := by decide

/-- Vector SB4: SUB D1,D0. -/
theorem test_vector_SB4 : answers [0xA4]
    { State.reset with d0 := 0x800000, d1 := 0x000001 }
    (fun t => t.d0 == 0x7FFFFF && t.psw == 0x0086 && t.pc == 0x080001) = true := by decide

/-- Vector SB16: SUBC D1,D0. -/
theorem test_vector_SB16 : answers [0xF2, 0x94]
    { State.reset with d0 := 0x000000, d1 := 0x000000, psw := 0x0004 }
    (fun t => t.d0 == 0xFFFFFF && t.psw == 0x0066 && t.pc == 0x080002) = true := by decide

/-- Vector ML2: MUL D1,D0. -/
theorem test_vector_ML2 : answers [0xF3, 0x44]
    { State.reset with d0 := 0x008000, d1 := 0x008000 }
    (fun t => t.d0 == 0x000000 && t.mdr == 0x4000 && t.pc == 0x080002) = true := by decide

/-- Vector ML6: MULU D1,D0. -/
theorem test_vector_ML6 : answers [0xF3, 0x54]
    { State.reset with d0 := 0x00FFFF, d1 := 0x00FFFF }
    (fun t => t.d0 == 0xFE0001 && t.mdr == 0xFFFE && t.pc == 0x080002) = true := by decide

/-- Vector DV1: DIVU D1,D0. -/
theorem test_vector_DV1 : answers [0xF3, 0x64]
    { State.reset with d0 := 0x005678, d1 := 0x000100, mdr := 0x0012 }
    (fun t => t.d0 == 0x001256 && t.mdr == 0x0078 && t.pc == 0x080002) = true := by decide

/-- Vector CP6: CMP A0,A1. -/
theorem test_vector_CP6 : answers [0xF2, 0x61]
    { State.reset with a0 := 0x800000, a1 := 0x7FFFFF }
    (fun t => t.psw == 0x00E2 && t.pc == 0x080002) = true := by decide

/-- Vector LG2: AND D0,D0. -/
theorem test_vector_LG2 : answers [0xF3, 0x00]
    { State.reset with d0 := 0xFF0000, psw := 0x000C }
    (fun t => t.psw == 0x0001 && t.pc == 0x080002) = true := by decide

/-- Vector LG14: XOR D0,D0. -/
theorem test_vector_LG14 : answers [0xF3, 0x20]
    { State.reset with d0 := 0xAB1234 }
    (fun t => t.d0 == 0xAB0000 && t.psw == 0x0001 && t.pc == 0x080002) = true := by decide

/-- Vector SH1: ASR D0. -/
theorem test_vector_SH1 : answers [0xF3, 0x38]
    { State.reset with d0 := 0xAB8001 }
    (fun t => t.d0 == 0xABC000 && t.psw == 0x0006 && t.pc == 0x080002) = true := by decide

/-- Vector SH3: LSR D1. -/
theorem test_vector_SH3 : answers [0xF3, 0x3D]
    { State.reset with d1 := 0xAB8001 }
    (fun t => t.d1 == 0xAB4000 && t.psw == 0x0004 && t.pc == 0x080002) = true := by decide

/-- Vector SH5: ROR D0. -/
theorem test_vector_SH5 : answers [0xF3, 0x34]
    { State.reset with d0 := 0xAB0001, psw := 0x0000 }
    (fun t => t.d0 == 0xAB0000 && t.psw == 0x0005 && t.pc == 0x080002) = true := by decide

/-- Vector SH7: ROL D0. -/
theorem test_vector_SH7 : answers [0xF3, 0x30]
    { State.reset with d0 := 0xAB8000, psw := 0x0000 }
    (fun t => t.d0 == 0xAB0000 && t.psw == 0x0005 && t.pc == 0x080002) = true := by decide

/-- Vector BT4: BTST x'8000',D1. -/
theorem test_vector_BT4 : answers [0xF7, 0x05, 0x00, 0x80]
    { State.reset with d1 := 0xFF8000 }
    (fun t => t.psw == 0x0002 && t.pc == 0x080004) = true := by decide

/-- Vector BT8: BSET D1,(A3). -/
theorem test_vector_BT8 : answers [0xF0, 0x2D]
    { State.reset with d1 := 0xABCDF0, a3 := 0x00F101, mem := [(0x00F101, 0x0F)] }
    (fun t => t.psw == 0x0001 && t.pc == 0x080002 && t.byteAt 0x00F101 == 0xFF) = true := by decide

/-- Vector BT10: BCLR D0,(A0). -/
theorem test_vector_BT10 : answers [0xF0, 0x30]
    { State.reset with d0 := 0x000004, a0 := 0x00FC20, mem := [(0x00FC20, 0x81)] }
    (fun t => t.psw == 0x0001 && t.pc == 0x080002 && t.byteAt 0x00FC20 == 0x81) = true := by decide

/-- Vector BR8: BLT +4. -/
theorem test_vector_BR8 : answers [0xE0, 0x04]
    { State.reset with psw := 0x000A }
    (fun t => t.psw == 0x000A && t.pc == 0x080002) = true := by decide

/-- Vector BR20: BEQX +5. -/
theorem test_vector_BR20 : answers [0xF5, 0xE8, 0x05]
    { State.reset with psw := 0x0010 }
    (fun t => t.psw == 0x0010 && t.pc == 0x080008) = true := by decide

/-- Vector BR35: BRA +16. -/
theorem test_vector_BR35 : answers [0xEA, 0x10]
    { State.reset with pc := 0xFFFFF8 }
    (fun t => t.psw == 0x0000 && t.pc == 0x00000A) = true := by decide

/-- Vector BR40: JMP -x'080005'. -/
theorem test_vector_BR40 : answers [0xF4, 0xE0, 0xFB, 0xFF, 0xF7]
    State.reset
    (fun t => t.psw == 0x0000 && t.pc == 0x000000) = true := by decide

/-- Vector BR44: JSR +x'010000'. -/
theorem test_vector_BR44 : answers [0xF4, 0xE1, 0x00, 0x00, 0x01]
    { State.reset with a3 := 0x00F200 }
    (fun t => t.a3 == 0x00F1FC && t.psw == 0x0000 && t.pc == 0x090005 && t.byteAt 0x00F1FC == 0x05 &&
      t.byteAt 0x00F1FD == 0x00 && t.byteAt 0x00F1FE == 0x08) = true := by decide

/-- Vector BR48: JSR +x'0100'. -/
theorem test_vector_BR48 : answers [0xFD, 0x00, 0x01]
    { State.reset with a3 := 0x000002 }
    (fun t => t.a3 == 0xFFFFFE && t.psw == 0x0000 && t.pc == 0x080103 && t.byteAt 0xFFFFFE == 0x03 &&
      t.byteAt 0xFFFFFF == 0x00 && t.byteAt 0x000000 == 0x08) = true := by decide

/-- Vector BR51: RTI. -/
theorem test_vector_BR51 : answers [0xEB]
    { State.reset with a3 := 0x00F1FA, psw := 0x0000, mem := [(0x00F1FA, 0x05), (0x00F1FB, 0x0B), (0x00F1FC, 0x34),
      (0x00F1FD, 0x12), (0x00F1FE, 0x08), (0x00F1FF, 0xEE)] }
    (fun t => t.a3 == 0x00F200 && t.psw == 0x0B05 && t.pc == 0x081234) = true := by decide

/-- Vector BR52: RTI. -/
theorem test_vector_BR52 : stopsAt [0xEB] { State.reset with a3 := 0x00F1FB } (.misalignedAccess 0x00F1FB) = true := by decide

/-- Vector IR1: maskable request, level 3. -/
theorem test_vector_IR1 : answers []
    { vectorState with a3 := 0x00F200, psw := 0x0F05, pc := 0x081234, mem := [(0x00F1FA, 0xEE), (0x00F1FB, 0xEE),
      (0x00F1FC, 0xEE), (0x00F1FD, 0xEE), (0x00F1FE, 0xEE), (0x00F1FF, 0xEE)], events := [.maskable 3] }
    (fun t => t.a3 == 0x00F1FA && t.psw == 0x0305 && t.pc == 0x080100) = true := by decide

/-- Vector IR8: non-maskable request. -/
theorem test_vector_IR8 : answers []
    { vectorState with a3 := 0x00F200, psw := 0x0F05, pc := 0x081234, events := [.nonMaskable] }
    (fun t => t.a3 == 0x00F1FA && t.psw == 0x0705 && t.pc == 0x080100) = true := by decide

/-- Vector IR10: maskable request, level 1. -/
theorem test_vector_IR10 : answers []
    { vectorState with a3 := 0x000004, psw := 0x0F00, pc := 0x081234, events := [.maskable 1] }
    (fun t => t.a3 == 0xFFFFFE && t.psw == 0x0100 && t.pc == 0x080100) = true := by decide

/-! Witnesses: for each statement with hypotheses, operands and a state that meet them, boundary values included -/

/-- An access that the check lets pass. -/
theorem loadable_of {s : State} {ea : Ptr} {n : Nat} (h : s.checkAccess ea n = none) : Loadable s ea n :=
  (checkAccess_eq_none_iff s ea n).1 h

/-- A store that the check lets pass. -/
theorem storable_of {s : State} {ea : Ptr} {n : Nat} (h : s.checkStore ea n = none) : Storable s ea n :=
  (checkStore_eq_none_iff s ea n).1 h

theorem inv_of_empty {s : State} (hm : Memory.wf s.mem = true) (hw : s.written = []) (hd : s.devOut = []) : s.Inv := by
  refine ⟨hm, ?_, ?_⟩
  · rw [hw]; intro a h; cases h
  · rw [hd]; intro c h; cases h

theorem reset_inv : State.reset.Inv := inv_of_empty rfl rfl rfl

/-- Every address 0 but A3, which is x'000004', so that a push wraps below it. -/
def lowStack : State := { State.reset with a3 := 0x000004 }

theorem lowStack_inv : lowStack.Inv := inv_of_empty rfl rfl rfl

/-- Code and data at the extremes: x'FFFFFF' unmapped, x'080000' on in CODE_REGION, ROM that stops stores at 0, a device
at 2. -/
def mixedPlatform : Platform :=
  { Platform.bare with
    memMap := { regions := [⟨0xFFFFFF, 1, .unmapped⟩, ⟨0, 1, .rom .stops⟩, ⟨2, 1, .device⟩], other := .ram }
    codeRegion := [⟨0x080000, 0x100⟩] }

def mixed : State := { State.reset with platform := mixedPlatform, pc := 0x080000 }

/-- Other values of the PSW and acceptance parameters (R8): IM in bits 15..13, S in bits 9..8, and a table that accepts
level 6 whenever bit 8 is 1, and level 0 always. -/
def tablePlatform : Platform :=
  { Platform.bare with pswImPos := 13, pswSPos := 8, irqAccept := .rows [⟨6, 0x0100, 0x0100⟩, ⟨0, 0, 0⟩] }

/-- Under that table level 6 is accepted at IE = 1, S0 = 1 and enters with IM = 6 in bits 15..13, IE 0, S0 as before
(R333, R336). -/
theorem test_table_accepts :
    (match step { lowStack with platform := tablePlatform, psw := 0x0900, events := [.maskable 6] } with
      | .next t => decide (t.psw = 0xC100) && decide (pswIM 13 t.psw = 6) && pswS0 8 t.psw && decide (t.pc = 0x080008)
      | .fault _ => false
      | .refused _ => false) = true := by decide

/-- Under that table level 6 is not accepted with bit 8 clear, and nothing is with IE = 0 (R21, R333). -/
theorem test_table_refuses :
    acceptsMaskable tablePlatform 0xE800 6 = false ∧ acceptsMaskable tablePlatform 0x0100 6 = false ∧
      acceptsMaskable tablePlatform 0x0100 0 = false ∧ acceptsMaskable tablePlatform 0x0800 0 = true := by decide

theorem witness_DecodeUndoesEncode :
    (Instr.movDnDm .d0 .d1).wellFormed = true ∧ (Instr.movAnAm .a2 .a2).wellFormed = true := by decide

theorem witness_DecodeAnswersOnlyEncodings :
    decode [0xF4, 0x70, 0x56, 0x34, 0x12, 0xAB] = .ok (.movImm24Dn 0x123456 .d0) [0xAB] := by decide

theorem witness_FirstByteGivesLength :
    decode [0x85, 0x08, 0xF6] = .ok (.movImm8Dn 0x08 .d1) [0xF6] ∧ firstByteLength 0xFF = 0 := by decide

theorem witness_UnassignedCodesAreTheListedOnes :
    decode [0xFF] = .undefined ∧ unassignedSecond 0xF0 0x02 = true ∧ unassignedSecond 0xF7 0xFF = true := by decide

theorem witness_StepRunsDecodedInstruction :
    let s := State.placeCode State.reset 0x080000 [0xF2, 0x36]
    (∀ k < 2, s.fetchesMemory (s.pc + BitVec.ofNat 24 k).toNat = true) ∧
      decode (s.codeBytes 2) = .ok (.movDmAn .d1 .a2) [] ∧ s.events = [] ∧
      { s with events := [BoundaryEvent.quiet] }.events = [.quiet] := by decide

theorem witness_StepRefusesUnassignedCode :
    let s := State.placeCode State.reset 0x080000 [0xFF]
    let t := State.placeCode State.reset 0x080000 [0xF0, 0x02]
    s.events = [] ∧ s.fetchesMemory s.pc.toNat = true ∧ s.byteAt s.pc.toNat = 0xFF ∧ t.events = [] ∧
      t.fetchesMemory t.pc.toNat = true ∧ t.fetchesMemory (t.pc + 1).toNat = true ∧
      unassignedSecond (t.byteAt t.pc.toNat).toNat (t.byteAt (t.pc + 1).toNat).toNat = true := by decide

theorem witness_FetchOfUnmappedAndOfStoredBytes :
    let s := { mixed with pc := 0xFFFFFF }
    let t := { mixed with written := [0x1000] }
    s.events = [] ∧ s.kindAt s.pc.toNat = .unmapped ∧ t.kindAt 0x1000 = .ram ∧ 0x1000 ∈ t.written := by decide

theorem witness_ReadsAreLittleEndian : ∀ a ∈ bytesFrom 0xFFFFFE 3, State.reset.kindAt a ≠ .device := by decide

/-- Each effective address of WordLoads at a boundary: 0, the highest even address by d8 = -2, wraps by d16, d24, Di. -/
theorem witness_WordLoads :
    let s := { State.reset with d1 := 0xFFFFFE }
    Loadable s (s.eaInd .a0) 2 ∧ Loadable s (s.eaD8 0xFE .a0) 2 ∧ Loadable s (s.eaD16 0x8000 .a0) 2 ∧
      Loadable s (s.eaD24 0xFFFFFE .a0) 2 ∧ Loadable s (s.eaIdx .d1 .a0) 2 ∧ Loadable s (eaAbs16 0xFFFE) 2 ∧
      Loadable s (eaAbs24 0xFFFFFE) 2 :=
  ⟨loadable_of rfl, loadable_of rfl, loadable_of rfl, loadable_of rfl, loadable_of rfl, loadable_of rfl, loadable_of rfl⟩

theorem witness_PointerLoads :
    let s := State.reset
    Loadable s (s.eaInd .a0) 3 ∧ Loadable s (s.eaD8 0xFE .a0) 3 ∧ Loadable s (s.eaD16 0x8000 .a0) 3 ∧
      Loadable s (s.eaD24 0xFFFFFE .a0) 3 ∧ Loadable s (eaAbs16 0xFFFE) 3 ∧ Loadable s (eaAbs24 0xFFFFFE) 3 :=
  ⟨loadable_of rfl, loadable_of rfl, loadable_of rfl, loadable_of rfl, loadable_of rfl, loadable_of rfl⟩

theorem witness_SignedByteLoads_ZeroExtendedByteLoads :
    let s := { State.reset with d1 := 0xFFFFFF }
    Loadable s (s.eaInd .a0) 1 ∧ Loadable s (s.eaD8 0xFF .a0) 1 ∧ Loadable s (s.eaD16 0x8000 .a0) 1 ∧
      Loadable s (s.eaD24 0xFFFFFF .a0) 1 ∧ Loadable s (s.eaIdx .d1 .a0) 1 ∧ Loadable s (eaAbs16 0xFFFF) 1 ∧
      Loadable s (eaAbs24 0xFFFFFF) 1 :=
  ⟨loadable_of rfl, loadable_of rfl, loadable_of rfl, loadable_of rfl, loadable_of rfl, loadable_of rfl, loadable_of rfl⟩

theorem witness_WordStores :
    let s := { State.reset with d1 := 0xFFFFFE }
    s.Inv ∧ Storable s (s.eaInd .a0) 2 ∧ Storable s (s.eaD8 0xFE .a0) 2 ∧ Storable s (s.eaD16 0x8000 .a0) 2 ∧
      Storable s (s.eaD24 0xFFFFFE .a0) 2 ∧ Storable s (s.eaIdx .d1 .a0) 2 ∧ Storable s (eaAbs16 0xFFFE) 2 ∧
      Storable s (eaAbs24 0xFFFFFE) 2 :=
  ⟨reset_inv, storable_of rfl, storable_of rfl, storable_of rfl, storable_of rfl, storable_of rfl, storable_of rfl,
    storable_of rfl⟩

theorem witness_PointerStores :
    let s := State.reset
    s.Inv ∧ Storable s (s.eaInd .a0) 3 ∧ Storable s (s.eaD8 0xFE .a0) 3 ∧ Storable s (s.eaD16 0x8000 .a0) 3 ∧
      Storable s (s.eaD24 0xFFFFFE .a0) 3 ∧ Storable s (eaAbs16 0xFFFE) 3 ∧ Storable s (eaAbs24 0xFFFFFE) 3 :=
  ⟨reset_inv, storable_of rfl, storable_of rfl, storable_of rfl, storable_of rfl, storable_of rfl, storable_of rfl⟩

theorem witness_ByteStores_BitSetAndClear :
    let s := { State.reset with d1 := 0xFFFFFF }
    s.Inv ∧ Storable s (s.eaInd .a0) 1 ∧ Storable s (s.eaD8 0xFF .a0) 1 ∧ Storable s (s.eaD16 0x8000 .a0) 1 ∧
      Storable s (s.eaD24 0xFFFFFF .a0) 1 ∧ Storable s (s.eaIdx .d1 .a0) 1 ∧ Storable s (eaAbs16 0xFFFF) 1 ∧
      Storable s (eaAbs24 0xFFFFFF) 1 :=
  ⟨reset_inv, storable_of rfl, storable_of rfl, storable_of rfl, storable_of rfl, storable_of rfl, storable_of rfl,
    storable_of rfl⟩

/-- Registers of TwoWordAddAndSubtract: the high sources may be one register, even the low source. -/
theorem witness_TwoWordAddAndSubtract : DReg.d1 ≠ DReg.d0 ∧ DReg.d2 ≠ DReg.d0 ∧ DReg.d3 ≠ DReg.d0 := by decide

/-- The largest quotient that fits: x'FFFF' / 1 (vector DV2). -/
theorem witness_DivideThatFits :
    let s := { State.reset with d0 := 0x00FFFF, d1 := 0x000001 }
    ((s.d .d1).extractLsb' 0 16).toNat ≠ 0 ∧
      (s.mdr.toNat * 2 ^ 16 + ((s.d .d0).extractLsb' 0 16).toNat) / ((s.d .d1).extractLsb' 0 16).toNat = 0xFFFF := by
  decide

/-- The smallest quotient that does not fit (vector DV3), and a divisor of 0 (vector DV4). -/
theorem witness_DivideOverflows :
    let s := { State.reset with d1 := 0x000001, mdr := 0x0001 }
    ((s.d .d1).extractLsb' 0 16).toNat ≤ s.mdr.toNat ∧ ((s.d .d1).extractLsb' 0 16).toNat = 1 ∧
      ((State.reset.d .d1).extractLsb' 0 16).toNat = 0 := by decide

/-- Operands for the last column of BranchConditionTable: equal; source above as unsigned and below as signed, in 24 bits
and in 16; the other way round. -/
theorem witness_BranchConditionTable :
    let s := { State.reset with d1 := 0x800000, a1 := 0x008000 }
    cmpOperands s (.cmpDnDm .d0 .d0) = some (0x000000, 0x000000) ∧
      cmpOperands s (.cmpDnDm .d1 .d0) = some (0x800000, 0x000000) ∧
      cmpOperands s (.cmpDmAn .d0 .a1) = some (0x000000, 0x008000) ∧
      cmpOperands s (.cmpImm16An 0x8000 .a1) = some (0x008000, 0x008000) ∧
      cmpOperands s (.cmpImm8Dn 0xFF .d1) = some (0xFFFFFF, 0x800000) := by decide

theorem witness_CallsPushReturnAddress :
    let s := { State.reset with a3 := 0x000002 }
    s.Inv ∧ Storable s (s.a3 - 4) 3 ∧ (s.a3 - 4).toNat = 0xFFFFFE := ⟨reset_inv, storable_of rfl, rfl⟩

theorem witness_RtsPopsReturnAddress : Loadable { State.reset with a3 := 0xFFFFFE } 0xFFFFFE 3 := loadable_of rfl

theorem witness_CallThenRtsReturns :
    lowStack.Inv ∧ AllRam lowStack (lowStack.a3 - 4) 3 ∧ (∃ t, exec (.jsrLabel16 0x0010) lowStack = .next t) ∧
      (∃ t, exec (.jsrLabel24 0x010000) lowStack = .next t) ∧ ∃ t, exec (.jsrInd .a3) lowStack = .next t :=
  ⟨lowStack_inv, fun _ _ => rfl, ⟨_, rfl⟩, ⟨_, rfl⟩, ⟨_, rfl⟩⟩

theorem witness_RtiRestoresPswAndPc :
    let s := { State.reset with a3 := 0xFFFFFE }
    Loadable s s.a3 2 ∧ Loadable s (s.a3 + 2) 3 := ⟨loadable_of rfl, loadable_of rfl⟩

/-- Level 6 with IM = 7, and level 0 with IM = 1, the two ends of the spec's acceptance rule; a level that a table
admits, with IM at its highest place; the push wraps. -/
theorem witness_MaskableEntry :
    let s := { lowStack with psw := 0x0F00, events := [.maskable 6] }
    let t := { lowStack with psw := 0x0900, events := [.maskable 0] }
    let u := { lowStack with platform := tablePlatform, psw := 0x0900, events := [.maskable 6] }
    s.Inv ∧ ImFits s.platform ∧ ImFits u.platform ∧ IrqAccepted s 6 ∧ IrqAccepted t 0 ∧ IrqAccepted u 6 ∧
      Storable s (s.a3 - 6) 2 ∧ Storable s (s.a3 - 4) 3 ∧ u.Inv ∧ Storable u (u.a3 - 6) 2 ∧ Storable u (u.a3 - 4) 3 :=
  ⟨lowStack_inv, ⟨by decide, by decide, by decide⟩, ⟨by decide, by decide, by decide⟩,
    acceptsMaskable_iff.1 rfl, acceptsMaskable_iff.1 rfl, acceptsMaskable_iff.1 rfl,
    storable_of rfl, storable_of rfl, lowStack_inv, storable_of rfl, storable_of rfl⟩

theorem witness_NonMaskableEntry :
    let s := { lowStack with events := [.nonMaskable] }
    s.Inv ∧ s.events = [.nonMaskable] ∧ Storable s (s.a3 - 6) 2 ∧ Storable s (s.a3 - 4) 3 :=
  ⟨lowStack_inv, rfl, storable_of rfl, storable_of rfl⟩

/-- IE = 0 with IM = 7, level 3 with IM = 3 (vectors IR4, IR2), and a level that no row of a table admits. -/
theorem witness_MaskedRequestIsNotEntered :
    let s := { State.reset with psw := 0x0700, events := [.maskable 0] }
    let t := { State.reset with psw := 0x0B05, events := [.maskable 3] }
    let u := { State.reset with platform := tablePlatform, psw := 0xE800, events := [.maskable 6] }
    (s.events = [.maskable 0] ∧ s.psw.getLsbD 11 = false) ∧ (t.events = [.maskable 3] ∧ ¬IrqAccepted t 3) ∧
      u.events = [.maskable 6] ∧ ¬IrqAccepted u 6 :=
  ⟨⟨rfl, rfl⟩, ⟨rfl, fun h => absurd (acceptsMaskable_iff.2 h) (by decide)⟩, rfl,
    fun h => absurd (acceptsMaskable_iff.2 h) (by decide)⟩

theorem witness_EntryThenRtiReturns :
    let s := { lowStack with psw := 0x0F00, events := [.maskable 6] }
    let t := { lowStack with events := [.nonMaskable] }
    s.Inv ∧ AllRam s (s.a3 - 6) 5 ∧ IsEntered s (.maskable 6) ∧ (∃ u, step s = .next u) ∧ t.Inv ∧
      AllRam t (t.a3 - 6) 5 ∧ IsEntered t .nonMaskable ∧ ∃ u, step t = .next u :=
  ⟨lowStack_inv, fun _ _ => rfl, Or.inr ⟨6, rfl, acceptsMaskable_iff.1 rfl⟩, ⟨_, rfl⟩, lowStack_inv, fun _ _ => rfl,
    Or.inl rfl, ⟨_, rfl⟩⟩

theorem witness_ResetEventRestarts : { State.reset with events := [BoundaryEvent.reset] }.events = [.reset] := rfl

/-- A step that stores, on a state with a code byte, a ROM byte and an unmapped byte: for StepKeepsInvariant and
CodeAndRomNeverChange. -/
theorem witness_StepKeepsInvariant_CodeAndRomNeverChange :
    let s := State.placeCode { mixed with a1 := 0x001000, d0 := 0x00BEEF } 0x080000 [0x04]
    s.Inv ∧ (∃ t, step s = .next t) ∧ s.isCode 0x080000 = true ∧ s.kindAt 0 ≠ .ram ∧ s.kindAt 0xFFFFFF ≠ .ram :=
  ⟨inv_of_empty rfl rfl rfl, ⟨_, rfl⟩, by decide, by decide, by decide⟩

theorem witness_MdrIsTouchedByFiveAndTwo :
    (writesMdr (.addDnDm .d0 .d1) = false ∧ readsMdr (.addDnDm .d0 .d1) = false ∧
      ∃ t, exec (.addDnDm .d0 .d1) State.reset = .next t) ∧
      readsMdr (.mulDnDm .d0 .d1) = false ∧ writesMdr (.mulDnDm .d0 .d1) = true :=
  ⟨⟨rfl, rfl, ⟨_, rfl⟩⟩, rfl, rfl⟩

theorem witness_PswWritersByGroup :
    (writesWholePsw (.addDnDm .d0 .d1) = false ∧ ∃ t, exec (.addDnDm .d0 .d1) State.reset = .next t) ∧
      (writesEightFlags (.asrDn .d0) = false ∧ writesWholePsw (.asrDn .d0) = false ∧
        ∃ t, exec (.asrDn .d0) State.reset = .next t) ∧
      (writesEightFlags .nop = false ∧ writesFourFlags .nop = false ∧ writesWholePsw .nop = false ∧
        ∃ t, exec .nop State.reset = .next t) :=
  ⟨⟨rfl, ⟨_, rfl⟩⟩, ⟨rfl, rfl, ⟨_, rfl⟩⟩, ⟨rfl, rfl, rfl, ⟨_, rfl⟩⟩⟩

theorem witness_OnlyStoresWriteMemory :
    storesToMemory (.movIndDm .a0 .d0) = false ∧ ∃ t, exec (.movIndDm .a0 .d0) State.reset = .next t := ⟨rfl, ⟨_, rfl⟩⟩

/-- Odd effective addresses of every kind of OddAccessesStop: 1, the highest address, and an odd stack, with a request to
enter on it; and, for its last clause, MOVB with a byte load, BSET with a byte load and store, NOP with neither. -/
theorem witness_OddAccessesStop :
    let s := { State.reset with a0 := 0x000001, a3 := 0x000001, d1 := 0xFFFFFE, events := [.nonMaskable] }
    ((s.eaInd .a0).toNat % 2 = 1 ∧ (s.eaD8 0xFE .a0).toNat % 2 = 1 ∧ (s.eaD16 0x8000 .a0).toNat % 2 = 1 ∧
      (s.eaD24 0xFFFFFE .a0).toNat % 2 = 1 ∧ (s.eaIdx .d1 .a0).toNat % 2 = 1 ∧ (eaAbs16 0xFFFF).toNat % 2 = 1 ∧
      (eaAbs24 0xFFFFFF).toNat % 2 = 1 ∧ (s.a3 - 4).toNat % 2 = 1 ∧ s.a3.toNat % 2 = 1) ∧
      IsEntered s .nonMaskable ∧ loadOf s (.movbD8Dm 0 .a0 .d0) = some (0x000001, 1) ∧
      loadOf s (.bsetDmInd .d1 .a0) = some (0x000001, 1) ∧
      storeOf s (.bsetDmInd .d1 .a0) = some (0x000001, [0xFE]) ∧ loadOf s .nop = none ∧ storeOf s .nop = none :=
  ⟨by decide, Or.inl rfl, by decide, by decide, by decide, rfl, rfl⟩

/-- For ForbiddenStoresStop, an access that each clause stops: an odd address, an unmapped last byte, a code byte past one
that is none, a ROM byte that stops stores; then the pushes of an entry, the first and the second on a code byte. -/
theorem witness_ForbiddenStoresStop :
    let s := { mixed with a0 := 0x000001, a1 := 0xFFFFFE, a2 := 0x07FFFE, a3 := 0x080104, events := [.nonMaskable] }
    let t := { s with a3 := 0x080002 }
    storeOf s (.movDmInd .d0 .a0) = some (0x000001, [0x00, 0x00]) ∧ (0x000001 : Ptr).toNat % 2 = 1 ∧
      (0xFFFFFF ∈ bytesFrom (s.eaInd .a1) 2 ∧ s.kindAt 0xFFFFFF = .unmapped) ∧
      (Loadable s (s.eaInd .a2) 3 ∧ 0x080000 ∈ bytesFrom (s.eaInd .a2) 3 ∧ s.isCode 0x080000 = true) ∧
      (Loadable s (eaAbs16 0) 1 ∧ s.isCode 0 = false ∧ s.kindAt 0 = .rom .stops) ∧ IsEntered s .nonMaskable ∧
      (Loadable s (s.a3 - 6) 2 ∧ 0x0800FE ∈ bytesFrom (s.a3 - 6) 2 ∧ s.isCode 0x0800FE = true) ∧
      Storable t (t.a3 - 6) 2 ∧ Loadable t (t.a3 - 4) 3 ∧ t.isCode 0x080000 = true :=
  ⟨by decide, by decide, ⟨by decide, by decide⟩, ⟨loadable_of rfl, by decide, by decide⟩,
    ⟨loadable_of rfl, by decide, by decide⟩, Or.inl rfl, ⟨loadable_of rfl, by decide, by decide⟩, storable_of rfl,
    loadable_of rfl, by decide⟩

/-- For ForbiddenLoadsStop: an odd address; an unmapped last byte of RTS and of a word; RTI whose word may be read and
whose last address byte is unmapped. -/
theorem witness_ForbiddenLoadsStop :
    let s := { mixed with a0 := 0x000001, a1 := 0xFFFFFE, a3 := 0xFFFFFE }
    let platform := { Platform.bare with memMap := { regions := [⟨0x000004, 1, .unmapped⟩], other := .ram } }
    let t := { State.reset with platform := platform }
    (loadOf s (.movIndDm .a0 .d0) = some (0x000001, 2) ∧ (0x000001 : Ptr).toNat % 2 = 1) ∧
      (loadOf s .rts = some (0xFFFFFE, 3) ∧ loadOf s (.movIndDm .a1 .d0) = some (0xFFFFFE, 2) ∧
        0xFFFFFF ∈ bytesFrom 0xFFFFFE 2 ∧ s.kindAt 0xFFFFFF = .unmapped) ∧
      Loadable t t.a3 2 ∧ 0x000004 ∈ bytesFrom (t.a3 + 2) 3 ∧ t.kindAt 0x000004 = .unmapped :=
  ⟨by decide, by decide, loadable_of rfl, by decide, by decide⟩

/-- For DeviceStoresGoOut: a pointer store whose first byte alone is a device's, and an entry that pushes the low byte of
PSW to that device. -/
theorem witness_DeviceStoresGoOut :
    let s := { mixed with a0 := 0x000002, a1 := 0x123456, a3 := 0x000008, events := [.nonMaskable] }
    storeOf s (.movAmInd .a1 .a0) = some (0x000002, [0x56, 0x34, 0x12]) ∧ Storable s 0x000002 3 ∧
      deviceBytes s 0x000002 [0x56, 0x34, 0x12] = [(0x000002, 0x56)] ∧ IsEntered s .nonMaskable ∧
      Storable s (s.a3 - 6) 2 ∧ Storable s (s.a3 - 4) 3 :=
  ⟨by decide, storable_of rfl, by decide, Or.inl rfl, storable_of rfl, storable_of rfl⟩

/-- A word store over two devices goes out lowest address first (log 33): devOut holds the latest byte first. -/
theorem test_device_store_order :
    let platform := { Platform.bare with memMap := { regions := [⟨0x00FC20, 2, .device⟩], other := .ram } }
    (match exec (.movDmInd .d0 .a0) { State.reset with platform := platform, a0 := 0x00FC20, d0 := 0x001234 } with
      | .next t => decide (t.devOut = [(0x00FC21, 0x12), (0x00FC20, 0x34)]) && decide (t.mem = [])
      | .fault _ => false
      | .refused _ => false) = true := by decide

/-- For InstructionsStopOnlyAtAccesses: an instruction of each kind, with accesses that may be made and one that may
not. -/
theorem witness_InstructionsStopOnlyAtAccesses :
    (∃ t, exec (.divuDnDm .d0 .d1) State.reset = .next t) ∧ Loadable State.reset State.reset.a3 2 ∧
      Loadable State.reset (State.reset.a3 + 2) 3 ∧ (∃ t, exec .rti State.reset = .next t) ∧
      Storable State.reset 0 2 ∧ ¬Loadable { State.reset with a0 := 0x000001 } 0x000001 2 :=
  ⟨⟨_, rfl⟩, loadable_of rfl, loadable_of rfl, ⟨_, rfl⟩, storable_of rfl, fun h => absurd h.1 (by decide)⟩

end Sys2Proof.Tests
end

section
/-! PROOFS. The status word: where the two writers of flags put their bits (R18, R24), a request that is not accepted
(R21, R333), the PSW after a reset (R25). -/

namespace Sys2Proof.Machine

/-! Where the flags stand -/

/-- The eight flags replace the low byte only (R24). -/
theorem pswSetFlags_highByte (p : Word) (f : ResultFlags) :
    (pswSetFlags p f).extractLsb' 8 8 = p.extractLsb' 8 8 :=
  BitVec.extractLsb'_append_eq_left

/-- VF, CF, NF and ZF replace the low four bits only (R24). -/
theorem pswSetLowFlags_high12 (p : Word) (vf cf nf zf : Bool) :
    (pswSetLowFlags p vf cf nf zf).extractLsb' 4 12 = p.extractLsb' 4 12 :=
  BitVec.extractLsb'_append_eq_left

theorem pswSetFlags_extendedFlags (p : Word) (f : ResultFlags) :
    (pswSetFlags p f).getLsbD 7 = f.vx ∧ (pswSetFlags p f).getLsbD 6 = f.cx ∧
      (pswSetFlags p f).getLsbD 5 = f.nx ∧ (pswSetFlags p f).getLsbD 4 = f.zx := by
  refine ⟨?_, ?_, ?_, ?_⟩ <;> simp only [pswSetFlags, ResultFlags.toByte, BitVec.getLsbD_append] <;> simp

theorem pswSetFlags_wordFlags (p : Word) (f : ResultFlags) :
    (pswSetFlags p f).getLsbD 3 = f.vf ∧ (pswSetFlags p f).getLsbD 2 = f.cf ∧
      (pswSetFlags p f).getLsbD 1 = f.nf ∧ (pswSetFlags p f).getLsbD 0 = f.zf := by
  refine ⟨?_, ?_, ?_, ?_⟩ <;> simp only [pswSetFlags, ResultFlags.toByte, BitVec.getLsbD_append] <;> simp

theorem pswSetLowFlags_wordFlags (p : Word) (vf cf nf zf : Bool) :
    (pswSetLowFlags p vf cf nf zf).getLsbD 3 = vf ∧ (pswSetLowFlags p vf cf nf zf).getLsbD 2 = cf ∧
      (pswSetLowFlags p vf cf nf zf).getLsbD 1 = nf ∧ (pswSetLowFlags p vf cf nf zf).getLsbD 0 = zf := by
  refine ⟨?_, ?_, ?_, ?_⟩ <;> simp only [pswSetLowFlags, BitVec.getLsbD_append] <;> simp

/-- Settles O24: what stays and what is written, for each of the two writers. -/
theorem flagPlacesInPsw : Obligations.FlagPlacesInPsw := fun p f vf cf nf zf =>
  ⟨pswSetFlags_highByte p f, pswSetFlags_extendedFlags p f, pswSetFlags_wordFlags p f,
    pswSetLowFlags_high12 p vf cf nf zf, pswSetLowFlags_wordFlags p vf cf nf zf⟩

/-! A request that is not accepted -/

theorem step_quiet {s : State} {es : List BoundaryEvent} (he : s.events = .quiet :: es) :
    step s = runInstruction { s with events := es } := by
  rw [step, nextStep, he]; rfl

/-- No maskable request is accepted while IE is 0 (R21). -/
theorem not_irqAccepted_of_disabled {s : State} {l : Fin 7} (h : s.psw.getLsbD 11 = false) : ¬IrqAccepted s l :=
  fun hacc => Bool.false_ne_true (h.symm.trans hacc.1)

/-- Settles O46: with the request or with a quiet event in its place, the step runs the same instruction. -/
theorem maskedRequestIsNotEntered : Obligations.MaskedRequestIsNotEntered := by
  intro s l es he hmasked
  have hnot : ¬IrqAccepted s l := hmasked.elim not_irqAccepted_of_disabled id
  rw [step_not_accepted he hnot, step_quiet (s := { s with events := .quiet :: es }) rfl]

/-! After a reset -/

/-- Every field of a zero PSW reads 0, wherever IM and S0 stand. -/
theorem pswFields_zero (pos : Nat) : pswIM pos 0 = 0 ∧ pswS0 pos 0 = false ∧ pswS1 pos 0 = false := by
  simp [pswIM, pswS0, pswS1]

/-- Settles O49: the fixed bits are read off the word, the movable fields by the lemma above. -/
theorem pswIsZeroAfterReset : Obligations.PswIsZeroAfterReset :=
  ⟨rfl, rfl, rfl, rfl, rfl, rfl, rfl, rfl, rfl, rfl, pswFields_zero, rfl, rfl⟩

end Sys2Proof.Machine
end

section
/-! PROOFS. MDR and the instructions (R17). An operation that neither reads nor writes MDR goes on, from a state with
another MDR, to the same state with that MDR: shown once per operation, then for every instruction. That such an
instruction leaves MDR follows, with the MDR the state already has. -/

namespace Sys2Proof.Machine

variable {s : State} {v : Word} {len : Nat}

/-- The answer with MDR replaced in the state it goes on to; a stop stays as it is. -/
def withMdr (v : Word) : Result → Result
  | .next t => .next (t.setMdr v)
  | .fault f => .fault f
  | .refused r => .refused r

theorem State.setMdr_self (s : State) : s.setMdr s.mdr = s := rfl

/-! The state's operations -/

theorem setD_setMdr (s : State) (r : DReg) (x : Ptr) (v : Word) : (s.setMdr v).setD r x = (s.setD r x).setMdr v := by
  cases r <;> rfl

theorem setA_setMdr (s : State) (r : AReg) (x : Ptr) (v : Word) : (s.setMdr v).setA r x = (s.setA r x).setMdr v := by
  cases r <;> rfl

theorem afterRead_setMdr (s : State) (ea : Ptr) (n : Nat) (v : Word) :
    (s.setMdr v).afterRead ea n = (s.afterRead ea n).setMdr v :=
  (apply_ite (fun t : State => t.setMdr v) _ (s.consume n) s).symm

theorem pokeByte_setMdr (s : State) (a : Nat) (b : Byte) (v : Word) :
    (s.setMdr v).pokeByte a b = (s.pokeByte a b).setMdr v := by
  simp only [State.pokeByte, State.setMdr_kindAt]
  cases s.kindAt a <;> rfl

theorem pokeBytes_setMdr (s : State) (ea : Ptr) (bs : List Byte) (v : Word) :
    (s.setMdr v).pokeBytes ea bs = (s.pokeBytes ea bs).setMdr v := by
  induction bs generalizing s ea with
  | nil => rfl
  | cons b bs ih => rw [State.pokeBytes, pokeByte_setMdr, ih, State.pokeBytes]

/-! Effective addresses -/

@[simp] theorem eaInd_setMdr (n : AReg) : (s.setMdr v).eaInd n = s.eaInd n := by simp [State.eaInd]
@[simp] theorem eaD8_setMdr (d : Byte) (n : AReg) : (s.setMdr v).eaD8 d n = s.eaD8 d n := by simp [State.eaD8]
@[simp] theorem eaD16_setMdr (d : Word) (n : AReg) : (s.setMdr v).eaD16 d n = s.eaD16 d n := by simp [State.eaD16]
@[simp] theorem eaD24_setMdr (d : Ptr) (n : AReg) : (s.setMdr v).eaD24 d n = s.eaD24 d n := by simp [State.eaD24]
@[simp] theorem eaIdx_setMdr (x : DReg) (n : AReg) : (s.setMdr v).eaIdx x n = s.eaIdx x n := by simp [State.eaIdx]

/-! Loads and stores, whatever goes on with them -/

theorem load8_setMdr (ea : Ptr) (k : Byte → State → Result) (hk : ∀ b t, k b (t.setMdr v) = withMdr v (k b t)) :
    load8 ea (s.setMdr v) k = withMdr v (load8 ea s k) := by
  have hcheck : (s.setMdr v).checkAccess ea 1 = s.checkAccess ea 1 := rfl
  have hpeek : (s.setMdr v).peek8 ea = s.peek8 ea := rfl
  simp only [load8, hcheck, hpeek, afterRead_setMdr, hk]
  cases s.checkAccess ea 1 <;> rfl

theorem load16_setMdr (ea : Ptr) (k : Word → State → Result) (hk : ∀ w t, k w (t.setMdr v) = withMdr v (k w t)) :
    load16 ea (s.setMdr v) k = withMdr v (load16 ea s k) := by
  have hcheck : (s.setMdr v).checkAccess ea 2 = s.checkAccess ea 2 := rfl
  have hpeek : (s.setMdr v).peek16 ea = s.peek16 ea := rfl
  simp only [load16, hcheck, hpeek, afterRead_setMdr, hk]
  cases s.checkAccess ea 2 <;> rfl

theorem load24_setMdr (ea : Ptr) (k : Ptr → State → Result) (hk : ∀ p t, k p (t.setMdr v) = withMdr v (k p t)) :
    load24 ea (s.setMdr v) k = withMdr v (load24 ea s k) := by
  have hcheck : (s.setMdr v).checkAccess ea 3 = s.checkAccess ea 3 := rfl
  have hpeek : (s.setMdr v).peek24 ea = s.peek24 ea := rfl
  simp only [load24, hcheck, hpeek, afterRead_setMdr, hk]
  cases s.checkAccess ea 3 <;> rfl

theorem store_setMdr (ea : Ptr) (bs : List Byte) (k : State → Result) (hk : ∀ t, k (t.setMdr v) = withMdr v (k t)) :
    store ea bs (s.setMdr v) k = withMdr v (store ea bs s k) := by
  have hcheck : (s.setMdr v).checkStore ea bs.length = s.checkStore ea bs.length := rfl
  simp only [store, hcheck, pokeBytes_setMdr, hk]
  cases s.checkStore ea bs.length <;> rfl

theorem andThen_withMdr (first : Result) (second : State → Result)
    (h : ∀ t, second (t.setMdr v) = withMdr v (second t)) :
    andThen (withMdr v first) second = withMdr v (andThen first second) := by
  cases first with
  | next t => exact h t
  | fault f => rfl
  | refused r => rfl

/-! The shapes of meaning, an operand read from either state being the same -/

theorem moveD_setMdr {r : DReg} {x y : Ptr} (hx : x = y) :
    moveD r x len (s.setMdr v) = withMdr v (moveD r y len s) := by
  rw [hx, moveD, setD_setMdr]; rfl

theorem moveA_setMdr {r : AReg} {x y : Ptr} (hx : x = y) :
    moveA r x len (s.setMdr v) = withMdr v (moveA r y len s) := by
  rw [hx, moveA, setA_setMdr]; rfl

theorem loadWordToD_setMdr {ea eb : Ptr} {r : DReg} (h : ea = eb) :
    loadWordToD ea r len (s.setMdr v) = withMdr v (loadWordToD eb r len s) :=
  h ▸ load16_setMdr ea _ fun _ _ => moveD_setMdr rfl

theorem loadPtrToD_setMdr {ea eb : Ptr} {r : DReg} (h : ea = eb) :
    loadPtrToD ea r len (s.setMdr v) = withMdr v (loadPtrToD eb r len s) :=
  h ▸ load24_setMdr ea _ fun _ _ => moveD_setMdr rfl

theorem loadPtrToA_setMdr {ea eb : Ptr} {r : AReg} (h : ea = eb) :
    loadPtrToA ea r len (s.setMdr v) = withMdr v (loadPtrToA eb r len s) :=
  h ▸ load24_setMdr ea _ fun _ _ => moveA_setMdr rfl

theorem loadSignedByteToD_setMdr {ea eb : Ptr} {r : DReg} (h : ea = eb) :
    loadSignedByteToD ea r len (s.setMdr v) = withMdr v (loadSignedByteToD eb r len s) :=
  h ▸ load8_setMdr ea _ fun _ _ => moveD_setMdr rfl

theorem loadZeroByteToD_setMdr {ea eb : Ptr} {r : DReg} (h : ea = eb) :
    loadZeroByteToD ea r len (s.setMdr v) = withMdr v (loadZeroByteToD eb r len s) :=
  h ▸ load8_setMdr ea _ fun _ _ => moveD_setMdr rfl

/-- MOVB in its assembler forms: the byte load, then the extension of what it loaded. -/
theorem loadThenExtend_setMdr {ea eb : Ptr} {r : DReg} {n : Nat} (h : ea = eb) :
    (andThen (loadZeroByteToD ea r n (s.setMdr v)) fun t => moveD r (sextByte (low8 (t.d r))) 1 t) =
      withMdr v (andThen (loadZeroByteToD eb r n s) fun t => moveD r (sextByte (low8 (t.d r))) 1 t) := by
  rw [loadZeroByteToD_setMdr h]
  exact andThen_withMdr _ _ fun t => moveD_setMdr (by simp)

theorem storeBytes_setMdr {ea eb : Ptr} {bs cs : List Byte} (h : ea = eb) (hb : bs = cs) :
    storeBytes ea bs len (s.setMdr v) = withMdr v (storeBytes eb cs len s) :=
  h ▸ hb ▸ store_setMdr ea bs _ fun _ => rfl

theorem storeWord_setMdr {ea eb x y : Ptr} (h : ea = eb) (hx : x = y) :
    storeWord ea x len (s.setMdr v) = withMdr v (storeWord eb y len s) :=
  storeBytes_setMdr h (hx ▸ rfl)

theorem storePtr_setMdr {ea eb x y : Ptr} (h : ea = eb) (hx : x = y) :
    storePtr ea x len (s.setMdr v) = withMdr v (storePtr eb y len s) :=
  storeBytes_setMdr h (hx ▸ rfl)

theorem storeByte_setMdr {ea eb x y : Ptr} (h : ea = eb) (hx : x = y) :
    storeByte ea x len (s.setMdr v) = withMdr v (storeByte eb y len s) :=
  storeBytes_setMdr h (hx ▸ rfl)

/-- The additions and subtractions: all flags, then the result. -/
theorem moveD_setFlags_setMdr {r : DReg} {x y : Ptr} {f g : ResultFlags} (hf : f = g) (hx : x = y) :
    moveD r x len ((s.setMdr v).setFlags f) = withMdr v (moveD r y len (s.setFlags g)) :=
  hf ▸ moveD_setMdr (s := s.setFlags f) hx

theorem moveA_setFlags_setMdr {r : AReg} {x y : Ptr} {f g : ResultFlags} (hf : f = g) (hx : x = y) :
    moveA r x len ((s.setMdr v).setFlags f) = withMdr v (moveA r y len (s.setFlags g)) :=
  hf ▸ moveA_setMdr (s := s.setFlags f) hx

theorem addToD_setMdr {r : DReg} {b c : Ptr} (hb : b = c) :
    addToD r b len (s.setMdr v) = withMdr v (addToD r c len s) :=
  moveD_setFlags_setMdr (by simp [hb]) (by simp [hb])

theorem addToA_setMdr {r : AReg} {b c : Ptr} (hb : b = c) :
    addToA r b len (s.setMdr v) = withMdr v (addToA r c len s) :=
  moveA_setFlags_setMdr (by simp [hb]) (by simp [hb])

theorem subFromD_setMdr {r : DReg} {b c : Ptr} (hb : b = c) :
    subFromD r b len (s.setMdr v) = withMdr v (subFromD r c len s) :=
  moveD_setFlags_setMdr (by simp [hb]) (by simp [hb])

theorem subFromA_setMdr {r : AReg} {b c : Ptr} (hb : b = c) :
    subFromA r b len (s.setMdr v) = withMdr v (subFromA r c len s) :=
  moveA_setFlags_setMdr (by simp [hb]) (by simp [hb])

theorem compare_setMdr {a a' b b' : Ptr} (ha : a = a') (hb : b = b') :
    compare a b len (s.setMdr v) = withMdr v (compare a' b' len s) :=
  ha ▸ hb ▸ rfl

theorem logic16_setMdr {r : DReg} {w x : Word} {cf cg : Bool} (hw : w = x) (hc : cf = cg) :
    logic16 r w cf len (s.setMdr v) = withMdr v (logic16 r x cg len s) := by
  rw [logic16, logic16, hw, hc]
  exact moveD_setMdr (s := s.setLowFlags false cg (x.getLsbD 15) (decide (x = 0))) (by simp)

theorem testBits_setMdr {w x : Word} (hw : w = x) :
    testBits w len (s.setMdr v) = withMdr v (testBits x len s) :=
  hw ▸ rfl

theorem modifyByte_setMdr {f g : Byte → Byte} {mask mask' : Byte} {ea eb : Ptr} (hf : f = g) (hm : mask = mask')
    (h : ea = eb) : modifyByte f mask ea len (s.setMdr v) = withMdr v (modifyByte g mask' eb len s) :=
  hf ▸ hm ▸ h ▸ load8_setMdr ea _ fun _ _ => store_setMdr ea _ _ fun _ => rfl

theorem branchIf_setMdr {taken taken' : Bool} {d : Ptr} (h : taken = taken') :
    branchIf taken d len (s.setMdr v) = withMdr v (branchIf taken' d len s) := by
  subst h; cases taken <;> rfl

theorem next_jump_setMdr {target target' : Ptr} (h : target = target') :
    (.next ((s.setMdr v).jump target) : Result) = withMdr v (.next (s.jump target')) :=
  h ▸ rfl

theorem next_setPsw_setMdr {p q : Word} (h : p = q) :
    (.next (((s.setMdr v).setPsw p).advance len) : Result) = withMdr v (.next ((s.setPsw q).advance len)) :=
  h ▸ rfl

theorem callSubroutine_setMdr {target target' : Ptr} (h : target = target') :
    callSubroutine target len (s.setMdr v) = withMdr v (callSubroutine target' len s) :=
  h ▸ store_setMdr _ _ _ fun _ => rfl

theorem execRts_setMdr : execRts (s.setMdr v) = withMdr v (execRts s) :=
  load24_setMdr _ _ fun _ _ => rfl

theorem returnFromInterrupt_setMdr : returnFromInterrupt (s.setMdr v) = withMdr v (returnFromInterrupt s) :=
  load16_setMdr _ _ fun _ _ => load24_setMdr _ _ fun _ _ => rfl

/-! Every instruction -/

/-- An instruction that neither reads nor writes MDR carries it along. -/
theorem exec_setMdr_of_untouched (i : Instr) (hr : readsMdr i = false) (hw : writesMdr i = false)
    (s : State) (v : Word) :
    exec i (s.setMdr v) = withMdr v (exec i s) := by
  cases i
  case movMdrDn | divuDnDm => cases hr
  case mulDnDm | muluDnDm | extDn | movDnMdr => cases hw
  case movDmAn | movAnAm | movImm16An | movImm24An | addnfImm8An => exact moveA_setMdr (by simp)
  case movAnDm | movDnDm | movImm8Dn | movImm16Dn | movImm24Dn | extxDn | extxuDn | extxbDn | extxbuDn =>
    exact moveD_setMdr (by simp)
  case movPswDn => exact moveD_setMdr (s := s.consume 2) rfl
  case addcDnDm | subcDnDm => exact moveD_setFlags_setMdr (by simp) (by simp)
  case movIndDm | movD8Dm | movD16Dm | movD24Dm | movIdxDm | movAbs16Dn | movAbs24Dn =>
    exact loadWordToD_setMdr (by simp)
  case movD8Am | movD16Am | movD24Am | movAbs16An | movAbs24An | movIndAm => exact loadPtrToA_setMdr (by simp)
  case movxD8Dm | movxD16Dm | movxD24Dm => exact loadPtrToD_setMdr (by simp)
  case movbD8Dm | movbD16Dm | movbD24Dm | movbIdxDm | movbAbs24Dn => exact loadSignedByteToD_setMdr (by simp)
  case movbuIndDm | movbuD8Dm | movbuD16Dm | movbuD24Dm | movbuIdxDm | movbuAbs16Dn | movbuAbs24Dn =>
    exact loadZeroByteToD_setMdr (by simp)
  case movbIndDm | movbAbs16Dn => exact loadThenExtend_setMdr (by simp)
  case movDmInd | movDmD8 | movDmD16 | movDmD24 | movDmIdx | movDnAbs16 | movDnAbs24 =>
    exact storeWord_setMdr (by simp) (by simp)
  case movAmD8 | movAmD16 | movAmD24 | movAnAbs16 | movAnAbs24 | movxDmD8 | movxDmD16 | movxDmD24 | movAmInd =>
    exact storePtr_setMdr (by simp) (by simp)
  case movbDmInd | movbDmD8 | movbDmD16 | movbDmD24 | movbDmIdx | movbDnAbs16 | movbDnAbs24 =>
    exact storeByte_setMdr (by simp) (by simp)
  case addDnDm | addAnDm | addImm8Dn | addImm16Dn | addImm24Dn => exact addToD_setMdr (by simp)
  case addDmAn | addAnAm | addImm8An | addImm16An | addImm24An => exact addToA_setMdr (by simp)
  case subDnDm | subAnDm | subImm16Dn | subImm24Dn => exact subFromD_setMdr (by simp)
  case subDmAn | subAnAm | subImm16An | subImm24An => exact subFromA_setMdr (by simp)
  case cmpDnDm | cmpDmAn | cmpAnDm | cmpAnAm | cmpImm8Dn | cmpImm16Dn | cmpImm24Dn | cmpImm16An | cmpImm24An =>
    exact compare_setMdr (by simp) (by simp)
  case andDnDm | andImm8Dn | andImm16Dn | orDnDm | orImm8Dn | orImm16Dn | xorDnDm | xorImm16Dn | notDn | asrDn | lsrDn |
      rorDn | rolDn =>
    exact logic16_setMdr (by simp) (by simp)
  case btstImm8Dn | btstImm16Dn => exact testBits_setMdr (by simp)
  case bsetDmInd m n =>
    exact modifyByte_setMdr (f := fun b => b ||| low8 ((s.setMdr v).d m)) (g := fun b => b ||| low8 (s.d m))
      (by simp) (by simp) (by simp)
  case bclrDmInd m n =>
    exact modifyByte_setMdr (f := fun b => b &&& ~~~low8 ((s.setMdr v).d m)) (g := fun b => b &&& ~~~low8 (s.d m))
      (by simp) (by simp) (by simp)
  case beq | bne | blt | ble | bge | bgt | bcs | bls | bcc | bhi | bvc | bvs | bnc | bns | bra | beqx | bnex | bltx |
      blex | bgex | bgtx | bcsx | blsx | bccx | bhix | bvcx | bvsx | bncx | bnsx =>
    exact branchIf_setMdr rfl
  case jsrLabel16 | jsrLabel24 => exact callSubroutine_setMdr rfl
  case jsrInd => exact callSubroutine_setMdr (by simp [setA_setMdr])
  case rts => exact execRts_setMdr
  case rti => exact returnFromInterrupt_setMdr
  case jmpLabel16 | jmpLabel24 => exact next_jump_setMdr rfl
  case jmpInd => exact next_jump_setMdr (by simp)
  case movDnPsw => exact next_setPsw_setMdr (by simp)
  case nop | andImm16Psw | orImm16Psw => rfl

/-- An instruction outside the five writers leaves MDR: MOV MDR,Dn writes a data register, and any other carries along
the MDR that the state has. -/
theorem exec_mdr_of_not_writesMdr {i : Instr} {t : State} (hw : writesMdr i = false) (h : exec i s = .next t) :
    t.mdr = s.mdr := by
  cases hr : readsMdr i with
  | false =>
    have hcarried := exec_setMdr_of_untouched i hr hw s s.mdr
    rw [State.setMdr_self, h] at hcarried
    rw [next_inj hcarried, State.setMdr_mdr]
  | true =>
    cases i
    case movMdrDn n => rw [← next_inj h]; simp
    case divuDnDm => cases hw
    all_goals cases hr

theorem finishProduct_setMdr {p q : BitVec 32} {r : DReg} (h : p = q) :
    finishProduct p r len (s.setMdr v) = finishProduct q r len s :=
  h ▸ rfl

theorem next_setMdr_setMdr {w x : Word} (h : w = x) :
    (.next (((s.setMdr v).setMdr w).advance len) : Result) = .next ((s.setMdr x).advance len) :=
  h ▸ rfl

/-- MUL, MULU, EXT and MOV Dn,MDR write MDR without reading it: what it held before does not matter. -/
theorem exec_setMdr_of_overwritten (i : Instr) (hr : readsMdr i = false) (hw : writesMdr i = true)
    (s : State) (v : Word) :
    exec i (s.setMdr v) = exec i s := by
  cases i
  case mulDnDm | muluDnDm => exact finishProduct_setMdr (by simp)
  case extDn | movDnMdr => exact next_setMdr_setMdr (by simp)
  case divuDnDm => cases hr
  all_goals cases hw

/-- Settles O53. -/
theorem mdrIsTouchedByFiveAndTwo : Obligations.MdrIsTouchedByFiveAndTwo := fun i s =>
  ⟨fun hw _ h => exec_mdr_of_not_writesMdr hw h,
    fun hr hw v => (exec_setMdr_of_untouched i hr hw s v).trans (by cases exec i s <;> rfl),
    fun hr hw v => exec_setMdr_of_overwritten i hr hw s v⟩

end Sys2Proof.Machine
end

section
/-! PROOFS. Which part of the PSW an instruction writes (R22, R24): outside the four that write the whole PSW, each
leaves it, or replaces VF, CF, NF and ZF, or replaces all eight flags. -/

namespace Sys2Proof.Machine

variable {s t u : State} {len : Nat}

/-- What an answer does with the PSW, by the two groups of R24: the first index says that all eight flags are written,
the second that VF, CF, NF and ZF are. A stop has every shape, for it answers no state. -/
inductive PswShape (s : State) : Bool → Bool → Result → Prop
  | kept {r : Result} (h : ∀ t, r = .next t → t.psw = s.psw) : PswShape s false false r
  | four {r : Result} (h : ∀ t, r = .next t → ∃ vf cf nf zf, t.psw = pswSetLowFlags s.psw vf cf nf zf) :
      PswShape s false true r
  | eight {r : Result} (h : ∀ t, r = .next t → ∃ f, t.psw = pswSetFlags s.psw f) : PswShape s true false r

namespace PswShape

/-! The shapes of meaning -/

theorem kept_next (h : t.psw = s.psw) : PswShape s false false (.next t) :=
  .kept fun _ ht => next_inj ht ▸ h

theorem eight_next {f : ResultFlags} (h : t.psw = pswSetFlags s.psw f) : PswShape s true false (.next t) :=
  .eight fun _ ht => ⟨f, next_inj ht ▸ h⟩

theorem four_next {vf cf nf zf : Bool} (h : t.psw = pswSetLowFlags s.psw vf cf nf zf) :
    PswShape s false true (.next t) :=
  .four fun _ ht => ⟨vf, cf, nf, zf, next_inj ht ▸ h⟩

theorem eight_moveD {r : DReg} {x : Ptr} {f : ResultFlags} (h : u.psw = pswSetFlags s.psw f) :
    PswShape s true false (moveD r x len u) :=
  eight_next (by simpa using h)

theorem eight_moveA {r : AReg} {x : Ptr} {f : ResultFlags} (h : u.psw = pswSetFlags s.psw f) :
    PswShape s true false (moveA r x len u) :=
  eight_next (by simpa using h)

theorem divide {n m : DReg} : PswShape s true false (execDivuDnDm n m s) := by
  unfold execDivuDnDm
  split <;> exact eight_moveD rfl

theorem logic {r : DReg} {w : Word} {cf : Bool} : PswShape s false true (logic16 r w cf len s) :=
  four_next (State.setD_psw _ _ _)

theorem modify (f : Byte → Byte) {mask : Byte} {ea : Ptr} : PswShape s false true (modifyByte f mask ea len s) :=
  .four fun t h => by
    obtain ⟨-, -, rfl⟩ := modifyByte_next h
    exact ⟨false, false, false, decide (s.peek8 ea &&& mask = 0), by simp⟩

theorem wordLoad {ea : Ptr} {r : DReg} : PswShape s false false (loadWordToD ea r len s) :=
  .kept fun _ h => by simp [(loadWordToD_next h).2]

theorem ptrLoadD {ea : Ptr} {r : DReg} : PswShape s false false (loadPtrToD ea r len s) :=
  .kept fun _ h => by simp [(loadPtrToD_next h).2]

theorem ptrLoadA {ea : Ptr} {r : AReg} : PswShape s false false (loadPtrToA ea r len s) :=
  .kept fun _ h => by simp [(loadPtrToA_next h).2]

theorem signedByteLoad {ea : Ptr} {r : DReg} : PswShape s false false (loadSignedByteToD ea r len s) :=
  .kept fun _ h => by simp [(loadSignedByteToD_next h).2]

theorem zeroByteLoad {ea : Ptr} {r : DReg} : PswShape s false false (loadZeroByteToD ea r len s) :=
  .kept fun _ h => by simp [(loadZeroByteToD_next h).2]

/-- MOVB in its assembler forms: the byte load, then the extension of what it loaded. -/
theorem loadThenExtend {ea : Ptr} {r : DReg} {n : Nat} : PswShape s false false
    (andThen (loadZeroByteToD ea r n s) fun t => moveD r (sextByte (low8 (t.d r))) 1 t) :=
  .kept fun _ h => by
    obtain ⟨u, hload, hextend⟩ := andThen_next h
    simp [← next_inj hextend, (loadZeroByteToD_next hload).2]

theorem bytesStore {ea : Ptr} {bs : List Byte} : PswShape s false false (storeBytes ea bs len s) :=
  .kept fun _ h => by simp [(storeBytes_next h).2]

theorem branch {taken : Bool} {d : Ptr} : PswShape s false false (branchIf taken d len s) := by
  cases taken <;> exact kept_next rfl

theorem call {target : Ptr} : PswShape s false false (callSubroutine target len s) :=
  .kept fun _ h => by simp [(callSubroutine_next h).2]

theorem ret : PswShape s false false (execRts s) :=
  .kept fun _ h => by simp [← next_inj (load24_next h).2]

/-! What stays -/

theorem highByte_of_high12 {p q : Word} (h : q.extractLsb' 4 12 = p.extractLsb' 4 12) :
    q.extractLsb' 8 8 = p.extractLsb' 8 8 := by
  have hpart : ∀ w : Word, w.extractLsb' 8 8 = (w.extractLsb' 4 12).extractLsb' 4 8 := fun w =>
    BitVec.eq_of_getLsbD_eq fun k hk => by simp [hk, show 4 + k < 12 by omega, ← Nat.add_assoc]
  rw [hpart, hpart, h]

/-- The bits that each shape keeps: 15..8 always, 15..4 unless all eight flags are written, all 16 if none is. -/
theorem keeps {eight four : Bool} {r : Result} (h : PswShape s eight four r) (ht : r = .next t) :
    t.psw.extractLsb' 8 8 = s.psw.extractLsb' 8 8 ∧
      (eight = false → t.psw.extractLsb' 4 12 = s.psw.extractLsb' 4 12) ∧
      (eight = false → four = false → t.psw = s.psw) := by
  cases h with
  | kept h =>
    rw [h t ht]
    exact ⟨rfl, fun _ => rfl, fun _ _ => rfl⟩
  | four h =>
    obtain ⟨vf, cf, nf, zf, hpsw⟩ := h t ht
    rw [hpsw]
    have hhigh := pswSetLowFlags_high12 s.psw vf cf nf zf
    exact ⟨highByte_of_high12 hhigh, fun _ => hhigh, fun _ h4 => absurd h4 (by decide)⟩
  | eight h =>
    obtain ⟨f, hpsw⟩ := h t ht
    rw [hpsw]
    exact ⟨pswSetFlags_highByte s.psw f, fun h8 => absurd h8 (by decide),
      fun h8 => absurd h8 (by decide)⟩

end PswShape

/-! Every instruction -/

/-- Every instruction but the four that write the whole PSW has the shape of its group. -/
theorem exec_pswShape (i : Instr) (h : writesWholePsw i = false) (s : State) :
    PswShape s (writesEightFlags i) (writesFourFlags i) (exec i s) := by
  cases i
  case movDnPsw | andImm16Psw | orImm16Psw | rti => cases h
  case addDnDm | addAnDm | addImm8Dn | addImm16Dn | addImm24Dn | addcDnDm => exact .eight_moveD rfl
  case subDnDm | subAnDm | subImm16Dn | subImm24Dn | subcDnDm => exact .eight_moveD rfl
  case addDmAn | addAnAm | addImm8An | addImm16An | addImm24An => exact .eight_moveA rfl
  case subDmAn | subAnAm | subImm16An | subImm24An => exact .eight_moveA rfl
  case cmpDnDm | cmpDmAn | cmpAnDm | cmpAnAm | cmpImm8Dn | cmpImm16Dn | cmpImm24Dn | cmpImm16An | cmpImm24An =>
    exact .eight_next rfl
  case mulDnDm | muluDnDm => exact .eight_moveD rfl
  case divuDnDm => exact .divide
  case andDnDm | andImm8Dn | andImm16Dn | orDnDm | orImm8Dn | orImm16Dn | xorDnDm | xorImm16Dn | notDn | asrDn | lsrDn |
      rorDn | rolDn =>
    exact .logic
  case btstImm8Dn | btstImm16Dn => exact .four_next rfl
  case bsetDmInd m n => exact .modify fun b => b ||| low8 (s.d m)
  case bclrDmInd m n => exact .modify fun b => b &&& ~~~low8 (s.d m)
  case movDmAn | movAnAm | movImm16An | movImm24An | addnfImm8An => exact .kept_next (by simp)
  case movAnDm | movDnDm | movPswDn | movMdrDn | movImm8Dn | movImm16Dn | movImm24Dn => exact .kept_next (by simp)
  case extxDn | extxuDn | extxbDn | extxbuDn => exact .kept_next (by simp)
  case movDnMdr | extDn | jmpLabel16 | jmpLabel24 | jmpInd | nop => exact .kept_next rfl
  case movIndDm | movD8Dm | movD16Dm | movD24Dm | movIdxDm | movAbs16Dn | movAbs24Dn => exact .wordLoad
  case movD8Am | movD16Am | movD24Am | movAbs16An | movAbs24An | movIndAm => exact .ptrLoadA
  case movxD8Dm | movxD16Dm | movxD24Dm => exact .ptrLoadD
  case movbD8Dm | movbD16Dm | movbD24Dm | movbIdxDm | movbAbs24Dn => exact .signedByteLoad
  case movbuIndDm | movbuD8Dm | movbuD16Dm | movbuD24Dm | movbuIdxDm | movbuAbs16Dn | movbuAbs24Dn =>
    exact .zeroByteLoad
  case movbIndDm | movbAbs16Dn => exact .loadThenExtend
  case movDmInd | movDmD8 | movDmD16 | movDmD24 | movDmIdx | movDnAbs16 | movDnAbs24 => exact .bytesStore
  case movAmD8 | movAmD16 | movAmD24 | movAnAbs16 | movAnAbs24 | movxDmD8 | movxDmD16 | movxDmD24 | movAmInd =>
    exact .bytesStore
  case movbDmInd | movbDmD8 | movbDmD16 | movbDmD24 | movbDmIdx | movbDnAbs16 | movbDnAbs24 => exact .bytesStore
  case beq | bne | blt | ble | bge | bgt | bcs | bls | bcc | bhi | bvc | bvs | bnc | bns | bra => exact .branch
  case beqx | bnex | bltx | blex | bgex | bgtx | bcsx | blsx | bccx | bhix | bvcx | bvsx | bncx | bnsx => exact .branch
  case jsrLabel16 | jsrLabel24 | jsrInd => exact .call
  case rts => exact .ret

/-- Settles O54: what the shape of its group keeps. -/
theorem pswWritersByGroup : Obligations.PswWritersByGroup := fun i s _ ht hwhole =>
  (exec_pswShape i hwhole s).keeps ht

end Sys2Proof.Machine
end

section
/-! PROOFS. Memory under a step (R40, R41, R44, R52). Every instruction either leaves memory and the devices or writes
them through allowed stores only; so does every step. What an allowed store keeps, a step keeps. -/

namespace Sys2Proof.Machine

variable {s t u : State} {len : Nat}

/-! What a state stores -/

/-- `t` has the memory, the device output and the platform of `s`; the list of written addresses is as before or
empty. -/
structure SameStorage (s t : State) : Prop where
  mem : t.mem = s.mem
  devOut : t.devOut = s.devOut
  written : t.written = s.written ∨ t.written = []
  platform : t.platform = s.platform

namespace SameStorage

theorem refl (s : State) : SameStorage s s := ⟨rfl, rfl, .inl rfl, rfl⟩

theorem withEvents (es : List BoundaryEvent) : SameStorage s { s with events := es } := ⟨rfl, rfl, .inl rfl, rfl⟩

theorem afterRead (ea : Ptr) (n : Nat) : SameStorage s (s.afterRead ea n) :=
  ⟨by simp, by simp, .inl (by simp), by simp⟩

theorem setD (h : SameStorage s u) (r : DReg) (x : Ptr) : SameStorage s (u.setD r x) :=
  ⟨by simp [h.mem], by simp [h.devOut], by simpa using h.written, by simp [h.platform]⟩

theorem setA (h : SameStorage s u) (r : AReg) (x : Ptr) : SameStorage s (u.setA r x) :=
  ⟨by simp [h.mem], by simp [h.devOut], by simpa using h.written, by simp [h.platform]⟩

theorem setMdr (h : SameStorage s u) (v : Word) : SameStorage s (u.setMdr v) :=
  ⟨h.mem, h.devOut, h.written, h.platform⟩

theorem setPsw (h : SameStorage s u) (p : Word) : SameStorage s (u.setPsw p) :=
  ⟨h.mem, h.devOut, h.written, h.platform⟩

theorem consume (h : SameStorage s u) (n : Nat) : SameStorage s (u.consume n) :=
  ⟨h.mem, h.devOut, h.written, h.platform⟩

theorem advance (h : SameStorage s u) (len : Nat) : SameStorage s (u.advance len) :=
  ⟨h.mem, h.devOut, h.written, h.platform⟩

theorem jump (h : SameStorage s u) (target : Ptr) : SameStorage s (u.jump target) :=
  ⟨h.mem, h.devOut, .inr rfl, h.platform⟩

theorem trans (h : SameStorage s t) (h' : SameStorage t u) : SameStorage s u :=
  ⟨h'.mem.trans h.mem, h'.devOut.trans h.devOut,
    h'.written.elim (fun hw => hw ▸ h.written) .inr, h'.platform.trans h.platform⟩

theorem byteAt (h : SameStorage s t) (x : Nat) : t.byteAt x = s.byteAt x := by
  rw [State.byteAt, State.byteAt, h.mem]

theorem keepsMem (h : SameStorage s t) : KeepsMem s t [] := ⟨fun x _ => h.byteAt x, fun _ => h.devOut⟩

theorem inv (h : SameStorage s t) (hs : s.Inv) : t.Inv := Inv_of_same hs h.mem h.written h.devOut

end SameStorage

/-! Allowed stores -/

/-- A byte poked at an address that is not RAM changes no memory (R41). -/
theorem pokeByte_byteAt_of_not_ram {x : Nat} (hx : s.kindAt x ≠ .ram) (a : Nat) (b : Byte) :
    (s.pokeByte a b).byteAt x = s.byteAt x := by
  by_cases hxa : x = a
  · subst hxa
    unfold State.pokeByte
    split
    · next hram => exact absurd hram hx
    · rfl
    · rfl
    · rfl
  · exact pokeByte_byteAt_ne s b hxa

theorem pokeBytes_byteAt_of_not_ram {x : Nat} (hx : s.kindAt x ≠ .ram) (ea : Ptr) (bs : List Byte) :
    (s.pokeBytes ea bs).byteAt x = s.byteAt x := by
  induction bs generalizing s ea with
  | nil => rfl
  | cons b bs ih =>
    rw [State.pokeBytes, ih (by rwa [pokeByte_kindAt]), pokeByte_byteAt_of_not_ram hx]

/-- An allowed store changes no byte of CODE_REGION, because it has no byte there, and none outside RAM (R41, R52). -/
theorem pokeBytes_byteAt_protected {ea : Ptr} {bs : List Byte} {x : Nat} (h : Storable s ea bs.length)
    (hx : s.isCode x = true ∨ s.kindAt x ≠ .ram) : (s.pokeBytes ea bs).byteAt x = s.byteAt x := by
  obtain ⟨-, hallowed⟩ := h
  rcases hx with hcode | hram
  · refine pokeBytes_byteAt_of_not_mem s ea bs fun hmem => ?_
    exact Bool.false_ne_true ((hallowed x hmem).1.symm.trans hcode)
  · exact pokeBytes_byteAt_of_not_ram hram ea bs

/-- The storage of `t` comes from that of `s` by allowed stores, any number of them. -/
inductive ReachesByStores : State → State → Prop
  | done {s t : State} (h : SameStorage s t) : ReachesByStores s t
  | keep {s u t : State} (h : SameStorage s u) (hrest : ReachesByStores u t) : ReachesByStores s t
  | store {s t : State} {ea : Ptr} {bs : List Byte} (h : Storable s ea bs.length)
      (hrest : ReachesByStores (s.pokeBytes ea bs) t) : ReachesByStores s t

namespace ReachesByStores

theorem inv (h : ReachesByStores s t) (hs : s.Inv) : t.Inv := by
  induction h with
  | done h => exact h.inv hs
  | keep h _ ih => exact ih (h.inv hs)
  | store _ _ ih => exact ih (pokeBytes_inv hs _ _)

theorem platform (h : ReachesByStores s t) : t.platform = s.platform := by
  induction h with
  | done h => exact h.platform
  | keep h _ ih => exact ih.trans h.platform
  | store _ _ ih => exact ih.trans (pokeBytes_platform _ _ _)

/-- CODE_REGION and what is not RAM read as before. -/
theorem byteAt_protected {x : Nat} (h : ReachesByStores s t) (hx : s.isCode x = true ∨ s.kindAt x ≠ .ram) :
    t.byteAt x = s.byteAt x := by
  induction h with
  | done h => exact h.byteAt x
  | keep h _ ih =>
    refine (ih ?_).trans (h.byteAt x)
    simpa only [State.isCode, State.kindAt, h.platform] using hx
  | store h _ ih =>
    refine (ih ?_).trans (pokeBytes_byteAt_protected h hx)
    simpa only [pokeBytes_isCode, pokeBytes_kindAt] using hx

end ReachesByStores

/-! The shapes of meaning -/

/-- What an answer does with memory and the devices, by whether the instruction is a storing form: a next state has the
storage as it was, or as allowed stores leave it. A stop has both shapes, for it answers no state. -/
inductive StorageShape (s : State) : Bool → Result → Prop
  | kept {r : Result} (h : ∀ t, r = .next t → SameStorage s t) : StorageShape s false r
  | stored {r : Result} (h : ∀ t, r = .next t → ReachesByStores s t) : StorageShape s true r

namespace StorageShape

theorem kept_next (h : SameStorage s t) : StorageShape s false (.next t) := .kept fun _ ht => next_inj ht ▸ h

theorem kept_moveD {r : DReg} {x : Ptr} (h : SameStorage s u) : StorageShape s false (moveD r x len u) :=
  kept_next ((h.setD r x).advance len)

theorem kept_moveA {r : AReg} {x : Ptr} (h : SameStorage s u) : StorageShape s false (moveA r x len u) :=
  kept_next ((h.setA r x).advance len)

theorem divide {n m : DReg} : StorageShape s false (execDivuDnDm n m s) := by
  unfold execDivuDnDm
  split <;> exact kept_moveD (.consume (.setMdr (.setPsw (.refl s) _) _) _)

theorem branch {taken : Bool} {d : Ptr} : StorageShape s false (branchIf taken d len s) := by
  cases taken
  · exact kept_next (.advance (.refl s) _)
  · exact kept_next (.jump (.refl s) _)

theorem wordLoad {ea : Ptr} {r : DReg} : StorageShape s false (loadWordToD ea r len s) :=
  .kept fun _ h => (loadWordToD_next h).2 ▸ ((SameStorage.afterRead ea 2).setD r _).advance len

theorem ptrLoadD {ea : Ptr} {r : DReg} : StorageShape s false (loadPtrToD ea r len s) :=
  .kept fun _ h => (loadPtrToD_next h).2 ▸ ((SameStorage.afterRead ea 3).setD r _).advance len

theorem ptrLoadA {ea : Ptr} {r : AReg} : StorageShape s false (loadPtrToA ea r len s) :=
  .kept fun _ h => (loadPtrToA_next h).2 ▸ ((SameStorage.afterRead ea 3).setA r _).advance len

theorem signedByteLoad {ea : Ptr} {r : DReg} : StorageShape s false (loadSignedByteToD ea r len s) :=
  .kept fun _ h => (loadSignedByteToD_next h).2 ▸ ((SameStorage.afterRead ea 1).setD r _).advance len

theorem zeroByteLoad {ea : Ptr} {r : DReg} : StorageShape s false (loadZeroByteToD ea r len s) :=
  .kept fun _ h => (loadZeroByteToD_next h).2 ▸ ((SameStorage.afterRead ea 1).setD r _).advance len

/-- MOVB in its assembler forms: the byte load, then the extension of what it loaded. -/
theorem loadThenExtend {ea : Ptr} {r : DReg} {n : Nat} : StorageShape s false
    (andThen (loadZeroByteToD ea r n s) fun t => moveD r (sextByte (low8 (t.d r))) 1 t) :=
  .kept fun _ h => by
    obtain ⟨u, hload, hextend⟩ := andThen_next h
    obtain ⟨-, rfl⟩ := loadZeroByteToD_next hload
    rw [← next_inj hextend]
    exact (SameStorage.afterRead ea 1).setD r _ |>.advance n |>.setD r _ |>.advance 1

theorem ret : StorageShape s false (execRts s) :=
  .kept fun _ h => next_inj (load24_next h).2 ▸ ((SameStorage.afterRead s.a3 3).setA _ _).jump _

theorem interruptReturn : StorageShape s false (returnFromInterrupt s) :=
  .kept fun _ h => by
    obtain ⟨u, rfl, -, -, rfl⟩ := returnFromInterrupt_next h
    exact ((SameStorage.afterRead s.a3 2).trans (.afterRead (s.a3 + 2) 3)).setPsw _ |>.setA _ _ |>.jump _

theorem bytesStore {ea : Ptr} {bs : List Byte} : StorageShape s true (storeBytes ea bs len s) :=
  .stored fun _ h => by
    obtain ⟨hallowed, rfl⟩ := storeBytes_next h
    exact .store hallowed (.done (.advance (.refl _) _))

theorem modify (f : Byte → Byte) {mask : Byte} {ea : Ptr} : StorageShape s true (modifyByte f mask ea len s) :=
  .stored fun _ h => by
    obtain ⟨-, hallowed, rfl⟩ := modifyByte_next h
    exact .keep (.afterRead ea 1) (.store (bs := [f (s.peek8 ea)]) hallowed
      (.done (.advance (.setPsw (.refl _) _) _)))

theorem call {target : Ptr} : StorageShape s true (callSubroutine target len s) :=
  .stored fun _ h => by
    obtain ⟨hallowed, rfl⟩ := callSubroutine_next h
    exact .store (bs := le24 (s.nextPc len)) hallowed (.done (.jump (.setA (.refl _) _ _) _))

theorem reaches {stores : Bool} {r : Result} (h : StorageShape s stores r) (ht : r = .next t) :
    ReachesByStores s t := by
  cases h with
  | kept h => exact .done (h t ht)
  | stored h => exact h t ht

end StorageShape

/-! Every instruction -/

/-- Every instruction has the shape that storesToMemory gives it. -/
theorem exec_storageShape (i : Instr) (s : State) : StorageShape s (storesToMemory i) (exec i s) := by
  cases i
  case movDmAn | movAnAm | movImm16An | movImm24An | addnfImm8An => exact .kept_moveA (.refl s)
  case addDmAn | addAnAm | addImm8An | addImm16An | addImm24An => exact .kept_moveA (.setPsw (.refl s) _)
  case subDmAn | subAnAm | subImm16An | subImm24An => exact .kept_moveA (.setPsw (.refl s) _)
  case movAnDm | movDnDm | movMdrDn | movImm8Dn | movImm16Dn | movImm24Dn | extxDn | extxuDn | extxbDn | extxbuDn =>
    exact .kept_moveD (.refl s)
  case movPswDn => exact .kept_moveD (.consume (.refl s) 2)
  case addDnDm | addAnDm | addImm8Dn | addImm16Dn | addImm24Dn | addcDnDm =>
    exact .kept_moveD (.setPsw (.refl s) _)
  case subDnDm | subAnDm | subImm16Dn | subImm24Dn | subcDnDm => exact .kept_moveD (.setPsw (.refl s) _)
  case mulDnDm | muluDnDm => exact .kept_moveD (.consume (.setMdr (.setPsw (.refl s) _) _) _)
  case divuDnDm => exact .divide
  case andDnDm | andImm8Dn | andImm16Dn | orDnDm | orImm8Dn | orImm16Dn | xorDnDm | xorImm16Dn | notDn | asrDn | lsrDn |
      rorDn | rolDn =>
    exact .kept_moveD (.setPsw (.refl s) _)
  case btstImm8Dn | btstImm16Dn | movDnPsw => exact .kept_next (.advance (.setPsw (.refl s) _) _)
  case andImm16Psw | orImm16Psw => exact .kept_next (.advance (.consume (.setPsw (.refl s) _) _) _)
  case movDnMdr | extDn => exact .kept_next (.advance (.setMdr (.refl s) _) _)
  case nop => exact .kept_next (.advance (.refl s) _)
  case cmpDnDm | cmpDmAn | cmpAnDm | cmpAnAm | cmpImm8Dn | cmpImm16Dn | cmpImm24Dn | cmpImm16An | cmpImm24An =>
    exact .kept_next (.advance (.setPsw (.refl s) _) _)
  case movIndDm | movD8Dm | movD16Dm | movD24Dm | movIdxDm | movAbs16Dn | movAbs24Dn => exact .wordLoad
  case movD8Am | movD16Am | movD24Am | movAbs16An | movAbs24An | movIndAm => exact .ptrLoadA
  case movxD8Dm | movxD16Dm | movxD24Dm => exact .ptrLoadD
  case movbD8Dm | movbD16Dm | movbD24Dm | movbIdxDm | movbAbs24Dn => exact .signedByteLoad
  case movbuIndDm | movbuD8Dm | movbuD16Dm | movbuD24Dm | movbuIdxDm | movbuAbs16Dn | movbuAbs24Dn =>
    exact .zeroByteLoad
  case movbIndDm | movbAbs16Dn => exact .loadThenExtend
  case movDmInd | movDmD8 | movDmD16 | movDmD24 | movDmIdx | movDnAbs16 | movDnAbs24 => exact .bytesStore
  case movAmD8 | movAmD16 | movAmD24 | movAnAbs16 | movAnAbs24 | movxDmD8 | movxDmD16 | movxDmD24 | movAmInd =>
    exact .bytesStore
  case movbDmInd | movbDmD8 | movbDmD16 | movbDmD24 | movbDmIdx | movbDnAbs16 | movbDnAbs24 => exact .bytesStore
  case bsetDmInd m n => exact .modify fun b => b ||| low8 (s.d m)
  case bclrDmInd m n => exact .modify fun b => b &&& ~~~low8 (s.d m)
  case beq | bne | blt | ble | bge | bgt | bcs | bls | bcc | bhi | bvc | bvs | bnc | bns | bra => exact .branch
  case beqx | bnex | bltx | blex | bgex | bgtx | bcsx | blsx | bccx | bhix | bvcx | bvsx | bncx | bnsx => exact .branch
  case jmpLabel16 | jmpLabel24 | jmpInd => exact .kept_next (.jump (.refl s) _)
  case jsrLabel16 | jsrLabel24 | jsrInd => exact .call
  case rts => exact .ret
  case rti => exact .interruptReturn

/-- Settles O55: an instruction outside the storing forms has the shape that keeps the storage. -/
theorem onlyStoresWriteMemory : Obligations.OnlyStoresWriteMemory := fun i s t ht hstores => by
  have hshape := exec_storageShape i s
  rw [hstores] at hshape
  cases hshape with
  | kept h => exact (h t ht).keepsMem

/-! Every step -/

/-- An interrupt entry writes through its two pushes only (R336). -/
theorem enterInterrupt_reaches {setMask : Word → Word} {entry : Ptr} (h : enterInterrupt setMask entry s = .next t) :
    ReachesByStores s t := by
  obtain ⟨u, v, rfl, rfl, hfirst, hsecond, rfl⟩ := enterInterrupt_next h
  exact .keep (.consume (.refl s) 2) (.store hfirst (.store (bs := le24 s.pc) hsecond
    (.done (.jump (.setPsw (.setA (.refl _) _ _) _) _))))

/-- A step, be it an instruction, an interrupt entry or a reset, writes through allowed stores only. -/
theorem step_reaches (h : step s = .next t) : ReachesByStores s t := by
  obtain ⟨es, ⟨i, n, hexec⟩ | ⟨l, -, hentry⟩ | hentry | rfl⟩ := step_next h
  · exact .keep (.withEvents es) (.keep (.consume (.refl _) n) ((exec_storageShape i _).reaches hexec))
  · exact .keep (.withEvents es) (enterInterrupt_reaches hentry)
  · exact .keep (.withEvents es) (enterInterrupt_reaches hentry)
  · exact .done ⟨rfl, rfl, .inr rfl, rfl⟩

/-- Settles O51: a store keeps the invariant, and a step writes through stores only. -/
theorem stepKeepsInvariant : Obligations.StepKeepsInvariant := fun _ _ hs h => (step_reaches h).inv hs

/-- Settles O52. -/
theorem codeAndRomNeverChange : Obligations.CodeAndRomNeverChange := fun _ _ h =>
  ⟨fun _ hx => (step_reaches h).byteAt_protected hx, (step_reaches h).platform⟩

/-- Settles O50: after reset memory and both lists are empty. -/
theorem resetMeetsInvariant : Obligations.ResetMeetsInvariant :=
  ⟨Memory.wf_reset, List.forall_mem_nil _, List.forall_mem_nil _⟩

end Sys2Proof.Machine
end

section
/-! PROOFS. Accesses that may not be made (R41, R45, R52, R331): whatever its shape, an instruction stops at the first
load or store it may not make, and so does an interrupt entry. The odd addresses are the first of the reasons. -/

namespace Sys2Proof.Machine

variable {s : State} {i : Instr} {ea : Ptr} {n : Nat} {e : BoundaryEvent} {es : List BoundaryEvent}

/-! Loads -/

theorem exec_rti (s : State) : exec .rti s = returnFromInterrupt s := rfl

theorem stopsAsLoad_of_shape {stored : Option (Ptr × List Byte)} {r : Result}
    (h : AccessShape s (some (ea, n)) stored r) : StopsAsLoad s ea n r := by
  cases h with
  | load8 => exact load8_stops _ _ _
  | load16 => exact load16_stops _ _ _
  | load24 => exact load24_stops _ _ _
  | modify => exact load8_stops _ _ _

/-- RTI loads twice, so it is a case of its own; every other instruction makes the one load of its shape, first. -/
theorem exec_stopsAsLoad (h : loadOf s i = some (ea, n)) : StopsAsLoad s ea n (exec i s) := by
  by_cases hrti : i = .rti
  · subst hrti
    obtain ⟨rfl, rfl⟩ := Prod.mk.inj (Option.some.inj h)
    rw [exec_rti, returnFromInterrupt]
    exact load16_stops _ _ _
  · exact stopsAsLoad_of_shape (h ▸ exec_accessShape s i hrti)

/-- The second load of RTI stops it where the first may be made (R312). -/
theorem rti_stopsAsLoad_second (h : Loadable s s.a3 2) : StopsAsLoad s (s.a3 + 2) 3 (exec .rti s) := by
  rw [exec_rti, returnFromInterrupt, load16_eq h, ← stopsAsLoad_congr (afterRead_platform s s.a3 2)]
  exact load24_stops _ _ _

/-- Settles O58. -/
theorem forbiddenLoadsStop : Obligations.ForbiddenLoadsStop :=
  ⟨fun _ _ _ _ h => exec_stopsAsLoad h, fun _ h => rti_stopsAsLoad_second h⟩

/-! Stores -/

/-- BSET and BCLR store where they load: the load stops at an access that may not be made at all, else the store does. -/
theorem modifyByte_stopsAsStore (f : Byte → Byte) (mask : Byte) (ea : Ptr) (len : Nat) :
    StopsAsStore s ea 1 (modifyByte f mask ea len s) := by
  cases hload : s.checkAccess ea 1 with
  | some r =>
    refine stopsAsStore_of_check fun r' hstore => ?_
    simp only [State.checkStore, hload, Option.some.injEq] at hstore
    simp only [modifyByte, load8, hload, hstore]
  | none =>
    rw [modifyByte, load8_eq ((checkAccess_eq_none_iff s ea 1).1 hload),
      ← stopsAsStore_congr (afterRead_platform s ea 1)]
    exact store_stops ea (le8 _) _ _

theorem stopsAsStore_of_shape {bytes : List Byte} {load : Option (Ptr × Nat)} {r : Result}
    (h : AccessShape s load (some (ea, bytes)) r) : StopsAsStore s ea bytes.length r := by
  cases h with
  | store => exact store_stops _ _ _ _
  | modify => exact modifyByte_stopsAsStore _ _ _ _

/-- RTI has no store. -/
theorem ne_rti_of_storeOf {stored : Ptr × List Byte} (h : storeOf s i = some stored) : i ≠ .rti := by
  rintro rfl
  cases h

theorem exec_stopsAsStore {bytes : List Byte} (h : storeOf s i = some (ea, bytes)) :
    StopsAsStore s ea bytes.length (exec i s) :=
  stopsAsStore_of_shape (h ▸ exec_accessShape s i (ne_rti_of_storeOf h))

/-- The second push of an entry is 2 above the first (R336). -/
theorem secondPush_eq (a : Ptr) : a - 6 + 2 = a - 4 := by bv_omega

theorem enterInterrupt_stopsAsStore_first (mask : Word → Word) (entry : Ptr) :
    StopsAsStore s (s.a3 - 6) 2 (enterInterrupt mask entry s) := by
  rw [← stopsAsStore_congr (State.consume_platform s 2)]
  exact store_stops (s.a3 - 6) (le16 s.pswRead) _ _

theorem enterInterrupt_stopsAsStore_second (h : Storable s (s.a3 - 6) 2) (mask : Word → Word) (entry : Ptr) :
    StopsAsStore s (s.a3 - 4) 3 (enterInterrupt mask entry s) := by
  have hfirst : Storable (s.consume 2) (s.a3 - 6) (le16 s.pswRead).length := (storable_congr rfl _ _).2 h
  have hplatform : ((s.consume 2).pokeBytes (s.a3 - 6) (le16 s.pswRead)).platform = s.platform := by simp
  rw [enterInterrupt, store_eq hfirst, secondPush_eq, ← stopsAsStore_congr hplatform]
  exact store_stops (s.a3 - 4) (le24 s.pc) _ _

/-- Settles O57: the storing forms are those that storeOf gives a store; an entry starts from the state without its
event, where the same accesses may be made. -/
theorem forbiddenStoresStop : Obligations.ForbiddenStoresStop := by
  refine ⟨fun s i hstores => ?_, fun s e es he hentered => ?_⟩
  · obtain ⟨⟨ea, bytes⟩, hstore⟩ := Option.isSome_iff_exists.1 ((storeOf_isSome s i).trans hstores)
    exact ⟨ea, bytes, hstore, exec_stopsAsStore hstore⟩
  · obtain ⟨mask, entry, hstep⟩ := step_enters he hentered
    rw [hstep]
    exact ⟨enterInterrupt_stopsAsStore_first (s := { s with events := es }) mask entry,
      fun h => enterInterrupt_stopsAsStore_second (s := { s with events := es }) h mask entry⟩

/-! Odd addresses -/

theorem exec_odd_load (h : loadOf s i = some (ea, n)) (hn : n ≠ 1) (hodd : ea.toNat % 2 = 1) :
    exec i s = .fault (.misalignedAccess ea.toNat) :=
  (exec_stopsAsLoad h).1 hn hodd

theorem exec_odd_store {bytes : List Byte} (h : storeOf s i = some (ea, bytes)) (hn : bytes.length ≠ 1)
    (hodd : ea.toNat % 2 = 1) : exec i s = .fault (.misalignedAccess ea.toNat) :=
  (exec_stopsAsStore h).1.1 hn hodd

/-- A3 and the address of the first push are odd together (R336). -/
theorem sub_six_odd {a : Ptr} (h : a.toNat % 2 = 1) : (a - 6).toNat % 2 = 1 := by bv_omega

theorem step_enters_odd (he : s.events = e :: es) (hentered : IsEntered s e) (hodd : s.a3.toNat % 2 = 1) :
    step s = .fault (.misalignedAccess (s.a3 - 6).toNat) := by
  obtain ⟨⟨⟨hmisaligned, -⟩, -⟩, -⟩ := forbiddenStoresStop.2 s e es he hentered
  exact hmisaligned (by decide) (sub_six_odd hodd)

/-- Is the answer a stop for an odd address? -/
def IsMisaligned (r : Result) : Prop := ∃ a, r = .fault (.misalignedAccess a)

theorem checkAccess_byte_ne_misaligned (a : Nat) : s.checkAccess ea 1 ≠ some (.misalignedAccess a) := by
  unfold State.checkAccess
  split
  · next h => simp at h
  · split <;> simp

theorem checkStore_byte_ne_misaligned (a : Nat) : s.checkStore ea 1 ≠ some (.misalignedAccess a) := by
  unfold State.checkStore
  split
  · next hf => exact hf ▸ checkAccess_byte_ne_misaligned a
  · split
    · simp
    · split <;> simp

theorem load8_not_misaligned {k : Byte → State → Result} (hk : ∀ b t, ¬IsMisaligned (k b t)) :
    ¬IsMisaligned (load8 ea s k) := by
  unfold load8
  split
  · next f hf =>
    rintro ⟨a, h⟩
    cases h
    exact checkAccess_byte_ne_misaligned a hf
  · exact hk _ _

theorem store_byte_not_misaligned {bytes : List Byte} (hn : bytes.length = 1) {k : State → Result}
    (hk : ∀ t, ¬IsMisaligned (k t)) : ¬IsMisaligned (store ea bytes s k) := by
  unfold store
  rw [hn]
  split
  · next f hf =>
    rintro ⟨a, h⟩
    cases h
    exact checkStore_byte_ne_misaligned a hf
  · exact hk _

theorem next_not_misaligned (t : State) : ¬IsMisaligned (.next t) := fun ⟨_, h⟩ => nomatch h

/-- An instruction whose accesses are of one byte, or that makes none, never stops for an odd address (R46). -/
theorem exec_bytes_not_misaligned (hload : ∀ ea n, loadOf s i = some (ea, n) → n = 1)
    (hstore : ∀ ea bytes, storeOf s i = some (ea, bytes) → bytes.length = 1) : ¬IsMisaligned (exec i s) := by
  have hrti : i ≠ .rti := by
    rintro rfl
    exact absurd (hload _ _ rfl) (by decide)
  have hshape := exec_accessShape s i hrti
  generalize loadOf s i = load, storeOf s i = stored, exec i s = r at hload hstore hshape
  cases hshape with
  | plain t => exact next_not_misaligned t
  | load8 => exact load8_not_misaligned fun _ _ => next_not_misaligned _
  | load16 => exact absurd (hload _ _ rfl) (by decide)
  | load24 => exact absurd (hload _ _ rfl) (by decide)
  | store => exact store_byte_not_misaligned (hstore _ _ rfl) fun _ => next_not_misaligned _
  | modify =>
    exact load8_not_misaligned fun _ _ => store_byte_not_misaligned rfl fun _ => next_not_misaligned _

/-- Settles O56: each form is listed with the access that loadOf or storeOf gives it. -/
theorem oddAccessesStop : Obligations.OddAccessesStop := by
  refine ⟨fun s n m r x d8 d16 d24 => ?_, fun s e es he hentered hodd => step_enters_odd he hentered hodd,
    fun s i hload hstore a h => exec_bytes_not_misaligned hload hstore ⟨a, h⟩⟩
  have word : ∀ {i ea}, loadOf s i = some (ea, 2) → ea.toNat % 2 = 1 → exec i s = .fault (.misalignedAccess ea.toNat) :=
    fun h => exec_odd_load h (by decide)
  have ptr : ∀ {i ea}, loadOf s i = some (ea, 3) → ea.toNat % 2 = 1 → exec i s = .fault (.misalignedAccess ea.toNat) :=
    fun h => exec_odd_load h (by decide)
  have wordStore : ∀ {i ea v}, storeOf s i = some (ea, twoBytes v) → ea.toNat % 2 = 1 →
      exec i s = .fault (.misalignedAccess ea.toNat) := fun h => exec_odd_store h (Nat.succ_succ_ne_one 0)
  have ptrStore : ∀ {i ea v}, storeOf s i = some (ea, threeBytes v) → ea.toNat % 2 = 1 →
      exec i s = .fault (.misalignedAccess ea.toNat) := fun h => exec_odd_store h (Nat.succ_succ_ne_one 1)
  exact ⟨⟨word rfl, word rfl, word rfl, word rfl, word rfl, word rfl, word rfl⟩,
    ⟨wordStore rfl, wordStore rfl, wordStore rfl, wordStore rfl, wordStore rfl, wordStore rfl, wordStore rfl⟩,
    ⟨ptr rfl, ptr rfl, ptr rfl, ptr rfl, ptr rfl, ptr rfl, ptr rfl, ptr rfl, ptr rfl⟩,
    ⟨ptrStore rfl, ptrStore rfl, ptrStore rfl, ptrStore rfl, ptrStore rfl, ptrStore rfl, ptrStore rfl, ptrStore rfl,
      ptrStore rfl⟩,
    ptrStore rfl, ptrStore rfl, ptrStore rfl, ptr rfl, word rfl⟩

end Sys2Proof.Machine
end

section
/-! PROOFS. What goes out to devices (R41, R349, R336): a store that may be made is made, and it sends out its bytes at
device addresses; the two pushes of an interrupt entry are one run of five bytes. -/

namespace Sys2Proof.Machine

variable {s t : State} {i : Instr} {ea : Ptr} {bytes : List Byte}

/-- What is a device depends on the platform alone. -/
theorem deviceBytes_congr (h : t.platform = s.platform) (ea : Ptr) (bytes : List Byte) :
    deviceBytes t ea bytes = deviceBytes s ea bytes := by
  have hkind : t.kindAt = s.kindAt := by
    funext a
    rw [State.kindAt, State.kindAt, h]
  rw [deviceBytes, deviceBytes, hkind]

theorem modifyByte_sends (f : Byte → Byte) (mask : Byte) (ea : Ptr) (len : Nat) (h : Storable s ea 1) :
    ∃ t, modifyByte f mask ea len s = .next t ∧ t.devOut = deviceBytes s ea [f (s.peek8 ea)] ++ s.devOut := by
  have hstore : Storable (s.afterRead ea 1) ea (le8 (f (s.peek8 ea))).length :=
    (storable_congr (afterRead_platform s ea 1) ea 1).2 h
  refine ⟨_, by rw [modifyByte, load8_eq h.1, store_eq hstore], ?_⟩
  rw [State.advance_devOut, State.setLowFlags_devOut, pokeBytes_devOut_eq,
    deviceBytes_congr (afterRead_platform s ea 1), afterRead_devOut]
  rfl

theorem sends_of_shape {load : Option (Ptr × Nat)} {r : Result} (h : AccessShape s load (some (ea, bytes)) r)
    (hallowed : Storable s ea bytes.length) :
    ∃ t, r = .next t ∧ t.devOut = deviceBytes s ea bytes ++ s.devOut := by
  cases h with
  | store _ _ k hk => exact ⟨_, store_eq hallowed _, (hk _).trans (pokeBytes_devOut_eq s ea bytes)⟩
  | modify => exact modifyByte_sends _ _ _ _ hallowed

theorem exec_sends (h : storeOf s i = some (ea, bytes)) (hallowed : Storable s ea bytes.length) :
    ∃ t, exec i s = .next t ∧ t.devOut = deviceBytes s ea bytes ++ s.devOut :=
  sends_of_shape (h ▸ exec_accessShape s i (ne_rti_of_storeOf h)) hallowed

/-- Two stores, the second right above the first, are one store of both runs of bytes. -/
theorem pokeBytes_append (s : State) (ea : Ptr) (xs ys : List Byte) :
    (s.pokeBytes ea xs).pokeBytes (ea + BitVec.ofNat 24 xs.length) ys = s.pokeBytes ea (xs ++ ys) := by
  induction xs generalizing s ea with
  | nil => simp [State.pokeBytes]
  | cons x xs ih =>
    have hnext : ea + BitVec.ofNat 24 (x :: xs).length = ea + 1 + BitVec.ofNat 24 xs.length := by
      rw [List.length_cons, BitVec.ofNat_add, BitVec.add_assoc, BitVec.add_comm (BitVec.ofNat 24 xs.length)]
      rfl
    rw [hnext, State.pokeBytes, ih]
    rfl

theorem enterInterrupt_sends (mask : Word → Word) (entry : Ptr) (hfirst : Storable s (s.a3 - 6) 2)
    (hsecond : Storable s (s.a3 - 4) 3) :
    ∃ t, enterInterrupt mask entry s = .next t ∧
      t.devOut = deviceBytes s (s.a3 - 6) (le16 s.pswRead ++ le24 s.pc) ++ s.devOut := by
  have hfirst' : Storable (s.consume 2) (s.a3 - 6) (le16 s.pswRead).length := (storable_congr rfl _ _).2 hfirst
  have hsecond' : Storable ((s.consume 2).pokeBytes (s.a3 - 6) (le16 s.pswRead)) (s.a3 - 6 + 2) (le24 s.pc).length :=
    (storable_congr (by simp) _ _).2 (secondPush_eq s.a3 ▸ hsecond)
  refine ⟨_, by rw [enterInterrupt, store_eq hfirst', store_eq hsecond'], ?_⟩
  have hboth := pokeBytes_append (s.consume 2) (s.a3 - 6) (le16 s.pswRead) (le24 s.pc)
  rw [State.jump_devOut, State.setPsw_devOut, State.setA_devOut]
  refine (congrArg State.devOut hboth).trans ?_
  rw [pokeBytes_devOut_eq, deviceBytes_congr (State.consume_platform s 2), State.consume_devOut]

/-- Settles O59: the free bits of the pushed PSW are those that the read of PSW draws. -/
theorem deviceStoresGoOut : Obligations.DeviceStoresGoOut := by
  refine ⟨fun s i ea bytes h hallowed => exec_sends h hallowed, fun s e es he hentered hfirst hsecond => ?_⟩
  obtain ⟨mask, entry, hstep⟩ := step_enters he hentered
  obtain ⟨t, ht, hout⟩ := enterInterrupt_sends (s := { s with events := es }) mask entry hfirst hsecond
  exact ⟨t, s.freeBit 1, s.freeBit 0, hstep.trans ht, hout⟩

end Sys2Proof.Machine
end

section
/-! PROOFS. Addresses and reads (R43, R48): what the seven addressing modes add, and in which order bytes are put
together. -/

namespace Sys2Proof.Machine

variable {s : State} {ea : Ptr}

/-- A displacement counts as a signed number (R48). -/
theorem add_signExtend_toNat {w : Nat} (a : Ptr) (d : BitVec w) :
    ((a + d.signExtend 24).toNat : Int) = (a.toNat + d.toInt) % 2 ^ 24 := by
  have hd : ((d.signExtend 24).toNat : Int) = d.toInt % 2 ^ 24 := by
    rw [BitVec.signExtend, BitVec.toNat_ofInt]
    exact Int.toNat_of_nonneg (Int.emod_nonneg _ (by decide))
  rw [BitVec.toNat_add, Int.natCast_emod, Int.natCast_add, hd]
  exact Int.add_emod_emod _ _ _

theorem eaAbs16_toNat (addr : Word) : (eaAbs16 addr).toNat = addr.toNat :=
  BitVec.toNat_setWidth_of_le (b := addr) (w' := 24) (by decide)

/-- Settles O13. -/
theorem effectiveAddressesModulo : Obligations.EffectiveAddressesModulo := fun s n x d8 d16 d24 =>
  ⟨rfl, add_signExtend_toNat (s.a n) d8, add_signExtend_toNat (s.a n) d16,
    BitVec.toNat_add (s.a n) d24, BitVec.toNat_add (s.a n) (s.d x), eaAbs16_toNat d16, rfl⟩

/-- Where there is no device, a read gives the byte of memory (R41). -/
theorem readByte_of_not_device {a : Nat} (h : s.kindAt a ≠ .device) (j : Nat) : s.readByte j a = s.byteAt a :=
  if_neg h

/-- Settles O14: each byte of the read is one of memory. -/
theorem readsAreLittleEndian : Obligations.ReadsAreLittleEndian := by
  intro s ea hmemory
  simp only [bytesFrom_three, List.forall_mem_cons] at hmemory
  obtain ⟨h0, h1, h2, -⟩ := hmemory
  rw [State.peek8, State.peek16, State.peek24]
  simp only [readByte_of_not_device, h0, h1, h2, ne_eq, not_false_iff, and_self]

end Sys2Proof.Machine
end

section
/-! PROOFS. The decoder on more bytes (R60): they do not change what it reads from the first ones, so no instruction
begins with another one; and no instruction has more than five. -/

namespace Sys2Proof

/-- What the decoder answers when more bytes stand after those it was given. -/
def Decoded.followedBy (more : List Byte) : Decoded → Decoded
  | .ok i rest => .ok i (rest ++ more)
  | .undefined => .undefined
  | .short => .short

theorem operand_append {e : Entry} {bs : List Byte} (h : operand e bs ≠ .short) (more : List Byte) :
    operand e (bs ++ more) = (operand e bs).followedBy more := by
  cases e with
  | unassigned | extended | plain => rfl
  | op8 f =>
    match bs with
    | [] => exact absurd rfl h
    | _ :: _ => rfl
  | op16 f =>
    match bs with
    | [] | [_] => exact absurd rfl h
    | _ :: _ :: _ => rfl
  | op24 f =>
    match bs with
    | [] | [_] | [_, _] => exact absurd rfl h
    | _ :: _ :: _ :: _ => rfl

theorem operand_length_le {e : Entry} {bs : List Byte} {i : Instr} (h : operand e bs = .ok i []) : bs.length ≤ 3 := by
  cases e with
  | unassigned | extended => cases h
  | plain j => cases h; exact Nat.zero_le 3
  | op8 f =>
    match bs with
    | [] => cases h
    | _ :: _ => cases h; exact Nat.le_of_ble_eq_true rfl
  | op16 f =>
    match bs with
    | [] | [_] => cases h
    | _ :: _ :: _ => cases h; exact Nat.le_of_ble_eq_true rfl
  | op24 f =>
    match bs with
    | [] | [_] | [_, _] => cases h
    | _ :: _ :: _ :: _ => cases h; exact Nat.le_refl 3

/-- Where the first byte extends the code, the second byte's page says what the operand is (R60). -/
theorem decode_extended {b : Byte} {p : Prefix} (h : firstByte b = .extended p) (c : Byte) (bs : List Byte) :
    decode (b :: c :: bs) = operand (secondByte p c) bs := by
  simp only [decode, h]

theorem decode_extended_alone {b : Byte} {p : Prefix} (h : firstByte b = .extended p) : decode [b] = .short := by
  simp only [decode, h]

/-- Where it does not, the first byte says what the operand is (R60). -/
theorem decode_unextended {b : Byte} (h : ∀ p, firstByte b ≠ .extended p) (bs : List Byte) :
    decode (b :: bs) = operand (firstByte b) bs := by
  rw [decode]
  split
  · next p hp => exact absurd hp (h p)
  · rfl

theorem decode_append {bs : List Byte} (h : decode bs ≠ .short) (more : List Byte) :
    decode (bs ++ more) = (decode bs).followedBy more := by
  cases bs with
  | nil => exact absurd rfl h
  | cons b bs =>
    by_cases hext : ∃ p, firstByte b = .extended p
    · obtain ⟨p, hp⟩ := hext
      cases bs with
      | nil => exact absurd (decode_extended_alone hp) h
      | cons c bs =>
        rw [decode_extended hp] at h
        rw [List.cons_append, List.cons_append, decode_extended hp, decode_extended hp, operand_append h]
    · have hplain := not_exists.1 hext
      rw [decode_unextended hplain] at h
      rw [List.cons_append, decode_unextended hplain, decode_unextended hplain, operand_append h]

/-- An instruction has at most five bytes (R60). -/
theorem decode_length_le {bs : List Byte} {i : Instr} (h : decode bs = .ok i []) : bs.length ≤ 5 := by
  cases bs with
  | nil => exact Nat.zero_le 5
  | cons b bs =>
    by_cases hext : ∃ p, firstByte b = .extended p
    · obtain ⟨p, hp⟩ := hext
      cases bs with
      | nil => exact Nat.le_of_ble_eq_true rfl
      | cons c bs =>
        rw [decode_extended hp] at h
        exact Nat.add_le_add_right (operand_length_le h) 2
    · rw [decode_unextended (not_exists.1 hext)] at h
      exact (Nat.add_le_add_right (operand_length_le h) 1).trans (by decide)

/-- No instruction begins with another instruction or an unassigned code: fewer bytes of it are too few (R60). -/
theorem decode_short_of_append {bs more : List Byte} {i : Instr} (h : decode (bs ++ more) = .ok i [])
    (hmore : more ≠ []) : decode bs = .short := by
  by_contra hshort
  rw [decode_append hshort] at h
  cases hd : decode bs with
  | ok j rest =>
    rw [hd, Decoded.followedBy, Decoded.ok.injEq] at h
    exact hmore (List.append_eq_nil_iff.1 h.2).2
  | undefined => rw [hd] at h; cases h
  | short => exact hshort hd

end Sys2Proof
end

section
/-! PROOFS. The fetch (R41, R52, R64): byte by byte it ends at the instruction that the bytes of memory decode to. -/

namespace Sys2Proof.Machine

variable {s : State} {k : Instr → State → Result}

/-! Fetching bytes -/

/-- A byte that is memory as it stands is fetched as memory holds it (R52). -/
theorem fetchByte_of_fetchesMemory {a : Nat} (h : s.fetchesMemory a = true) (k : Byte → State → Result) :
    fetchByte a s k = k (s.byteAt a) s := by
  unfold State.fetchesMemory at h
  unfold fetchByte
  cases hk : s.kindAt a with
  | ram | rom => simp_all
  | device | unmapped => simp [hk] at h

theorem fetchByte_unmapped {a : Nat} (h : s.kindAt a = .unmapped) (k : Byte → State → Result) :
    fetchByte a s k = .fault (.unmappedAccess a) := by
  simp only [fetchByte, h]

/-- A byte stored to since the last taken transfer is fetched as a free value (R52). -/
theorem fetchByte_written {a : Nat} (hram : s.kindAt a = .ram) (hw : a ∈ s.written) (k : Byte → State → Result) :
    fetchByte a s k = k (Config.undefByte s.draws) (s.consume 1) := by
  simp [fetchByte, hram, hw]

/-! Fetching an instruction -/

@[simp] theorem State.codeBytes_length (s : State) (n : Nat) : (s.codeBytes n).length = n := by
  simp [State.codeBytes]

theorem State.codeBytes_succ (s : State) (n : Nat) :
    s.codeBytes (n + 1) = s.codeBytes n ++ [s.byteAt (s.pc + BitVec.ofNat 24 n).toNat] := by
  simp [State.codeBytes, List.range_succ]

theorem State.codeBytes_add (s : State) (m n : Nat) : ∃ more, s.codeBytes (m + n) = s.codeBytes m ++ more ∧
    more.length = n := by
  induction n with
  | zero => exact ⟨[], by simp, rfl⟩
  | succ n ih =>
    obtain ⟨more, heq, hlen⟩ := ih
    exact ⟨_, by rw [← Nat.add_assoc, codeBytes_succ, heq, List.append_assoc], by simp [hlen]⟩

theorem fetchFrom_ok {acc : List Byte} {i : Instr} (h : decode acc = .ok i []) (fuel : Nat) :
    fetchFrom (fuel + 1) acc s k = k i s := by
  simp only [fetchFrom, h]

theorem fetchFrom_short {acc : List Byte} (h : decode acc = .short) (fuel : Nat) :
    fetchFrom (fuel + 1) acc s k =
      fetchByte (s.pc + BitVec.ofNat 24 acc.length).toNat s fun b t => fetchFrom fuel (acc ++ [b]) t k := by
  simp only [fetchFrom, h]

/-- With the first `m` bytes of an instruction of `m + n` fetched, the other `n` follow and it runs. -/
theorem fetchFrom_codeBytes {i : Instr} {m n fuel : Nat} (hdecode : decode (s.codeBytes (m + n)) = .ok i [])
    (hmemory : ∀ j < m + n, s.fetchesMemory (s.pc + BitVec.ofNat 24 j).toNat = true) (hfuel : n < fuel) :
    fetchFrom fuel (s.codeBytes m) s k = k i s := by
  induction n generalizing m fuel with
  | zero =>
    obtain ⟨fuel, rfl⟩ := Nat.exists_eq_succ_of_ne_zero (Nat.ne_of_gt hfuel)
    exact fetchFrom_ok hdecode fuel
  | succ n ih =>
    obtain ⟨fuel, rfl⟩ := Nat.exists_eq_succ_of_ne_zero (Nat.ne_of_gt (Nat.zero_lt_of_lt hfuel))
    obtain ⟨more, heq, hlen⟩ := s.codeBytes_add m (n + 1)
    have hshort : decode (s.codeBytes m) = .short :=
      decode_short_of_append (heq ▸ hdecode) (List.ne_nil_of_length_eq_add_one hlen)
    rw [Nat.succ_eq_add_one, fetchFrom_short hshort, State.codeBytes_length,
      fetchByte_of_fetchesMemory (hmemory m (by omega)), ← State.codeBytes_succ]
    rw [show m + (n + 1) = m + 1 + n by omega] at hdecode hmemory
    exact ih hdecode hmemory (Nat.lt_of_succ_lt_succ hfuel)

theorem runInstruction_decoded {i : Instr} {n : Nat}
    (hmemory : ∀ j < n, s.fetchesMemory (s.pc + BitVec.ofNat 24 j).toNat = true)
    (hdecode : decode (s.codeBytes n) = .ok i []) : runInstruction s = exec i s := by
  have hlen : n ≤ 5 := by simpa using decode_length_le hdecode
  have hzero : 0 + n = n := Nat.zero_add n
  exact fetchFrom_codeBytes (m := 0) (hzero.symm ▸ hdecode) (hzero.symm ▸ hmemory) (Nat.lt_succ_of_le hlen)

/-! One step -/

theorem step_noEvent (h : s.events = []) : step s = runInstruction s := by
  rw [step, nextStep, h]

/-- Settles O6: taking the quiet event leaves pc, memory and the platform. -/
theorem stepRunsDecodedInstruction : Obligations.StepRunsDecodedInstruction := fun s _ _ es hmemory hdecode =>
  ⟨fun he => (step_noEvent he).trans (runInstruction_decoded hmemory hdecode),
    fun he => (step_quiet he).trans (runInstruction_decoded (s := { s with events := es }) hmemory hdecode)⟩

/-- Settles O8: the first byte is fetched before anything is decoded. -/
theorem fetchOfUnmappedAndOfStoredBytes : Obligations.FetchOfUnmappedAndOfStoredBytes := by
  refine ⟨fun s he hunmapped => ?_, fun s a k hram hw => fetchByte_written hram hw k⟩
  have hpc : s.pc + BitVec.ofNat 24 ([] : List Byte).length = s.pc := BitVec.add_zero s.pc
  rw [step_noEvent he, runInstruction, fetch, fetchFrom_short rfl, hpc, fetchByte_unmapped hunmapped]

end Sys2Proof.Machine
end

section
/-! PROOFS. The code of an instruction (R60 to R64): its operation code stands in a cell of the first-byte map or of one
of the seven second-byte maps, and the operand bytes the cell asks for follow. The decoder answers exactly the
instructions that have a code, and an instruction's code is what the encoder writes. -/

namespace Sys2Proof

/-! Operand bytes (R42, R63) -/

theorem le16_append (hi lo : Byte) : le16 (hi ++ lo) = [lo, hi] := by
  rw [le16, BitVec.extractLsb'_append_eq_right, BitVec.extractLsb'_append_eq_left]

theorem le24_append (hi mid lo : Byte) : le24 (hi ++ mid ++ lo) = [lo, mid, hi] := by
  have hmid : (hi ++ mid ++ lo).extractLsb' 8 8 = mid :=
    (BitVec.extractLsb'_append_eq_of_le (Nat.le_refl 8)).trans BitVec.extractLsb'_append_eq_right
  have hhi : (hi ++ mid ++ lo).extractLsb' 16 8 = hi :=
    (BitVec.extractLsb'_append_eq_of_le (by decide)).trans BitVec.extractLsb'_append_eq_left
  rw [le24, BitVec.extractLsb'_append_eq_right, hmid, hhi]

theorem word_of_bytes (v : Word) : v.extractLsb' 8 8 ++ v.extractLsb' 0 8 = v := by
  rw [BitVec.extractLsb'_append_extractLsb'_eq_extractLsb' (Nat.zero_add 8).symm]
  exact BitVec.extractLsb'_eq_self

theorem ptr_of_bytes (v : Ptr) : v.extractLsb' 16 8 ++ v.extractLsb' 8 8 ++ v.extractLsb' 0 8 = v := by
  have hhigh : v.extractLsb' 16 8 ++ v.extractLsb' 8 8 = v.extractLsb' 8 16 :=
    BitVec.extractLsb'_append_extractLsb'_eq_extractLsb' (start₁ := 8) (len₁ := 8) rfl
  rw [hhigh, BitVec.extractLsb'_append_extractLsb'_eq_extractLsb' (Nat.zero_add 8).symm]
  exact BitVec.extractLsb'_eq_self

/-- The cell reads the instruction from these operand bytes. -/
inductive Entry.Reads : Entry → List Byte → Instr → Prop
  | plain (i : Instr) : Reads (.plain i) [] i
  | op8 (f : Byte → Instr) (d : Byte) : Reads (.op8 f) (le8 d) (f d)
  | op16 (f : Word → Instr) (d : Word) : Reads (.op16 f) (le16 d) (f d)
  | op24 (f : Ptr → Instr) (d : Ptr) : Reads (.op24 f) (le24 d) (f d)

theorem Entry.Reads.ne_extended {e : Entry} {d : List Byte} {i : Instr} (h : e.Reads d i) (p : Prefix) :
    e ≠ .extended p := by
  rintro rfl
  cases h

theorem operand_eq_ok_iff {e : Entry} {bs rest : List Byte} {i : Instr} :
    operand e bs = .ok i rest ↔ ∃ d, e.Reads d i ∧ bs = d ++ rest := by
  constructor
  · intro h
    cases e with
    | unassigned | extended => cases h
    | plain => cases h; exact ⟨_, .plain i, rfl⟩
    | op8 f =>
      match bs with
      | [] => cases h
      | b :: _ => cases h; exact ⟨_, .op8 f b, rfl⟩
    | op16 f =>
      match bs with
      | [] | [_] => cases h
      | lo :: hi :: _ => cases h; exact ⟨_, .op16 f (hi ++ lo), by rw [le16_append]; rfl⟩
    | op24 f =>
      match bs with
      | [] | [_] | [_, _] => cases h
      | lo :: mid :: hi :: _ => cases h; exact ⟨_, .op24 f (hi ++ mid ++ lo), by rw [le24_append]; rfl⟩
  · rintro ⟨_, hreads, rfl⟩
    cases hreads with
    | plain | op8 => rfl
    | op16 f d => exact congrArg (fun v => Decoded.ok (f v) rest) (word_of_bytes d)
    | op24 f d => exact congrArg (fun v => Decoded.ok (f v) rest) (ptr_of_bytes d)

/-! The code of an instruction -/

/-- The bytes are a code of the instruction: an operation code of one byte, or of two where the first one names a map for
the second, then the operand. -/
inductive HasCode : List Byte → Instr → Prop
  | single {b : Byte} {d : List Byte} {i : Instr} : (firstByte b).Reads d i → HasCode (b :: d) i
  | paged {b c : Byte} {p : Prefix} {d : List Byte} {i : Instr} :
      firstByte b = .extended p → (secondByte p c).Reads d i → HasCode (b :: c :: d) i

theorem decode_eq_ok_iff {bs rest : List Byte} {i : Instr} :
    decode bs = .ok i rest ↔ ∃ code, HasCode code i ∧ bs = code ++ rest := by
  constructor
  · intro h
    cases bs with
    | nil => cases h
    | cons b bs =>
      by_cases hext : ∃ p, firstByte b = .extended p
      · obtain ⟨p, hp⟩ := hext
        cases bs with
        | nil => rw [decode_extended_alone hp] at h; cases h
        | cons c bs =>
          rw [decode_extended hp] at h
          obtain ⟨d, hreads, rfl⟩ := operand_eq_ok_iff.1 h
          exact ⟨_, .paged hp hreads, rfl⟩
      · rw [decode_unextended (not_exists.1 hext)] at h
        obtain ⟨d, hreads, rfl⟩ := operand_eq_ok_iff.1 h
        exact ⟨_, .single hreads, rfl⟩
  · rintro ⟨_, hcode, rfl⟩
    cases hcode with
    | single hreads =>
      exact (decode_unextended hreads.ne_extended _).trans (operand_eq_ok_iff.2 ⟨_, hreads, rfl⟩)
    | paged hp hreads => exact (decode_extended hp _ _).trans (operand_eq_ok_iff.2 ⟨_, hreads, rfl⟩)

/-! What the encoder writes is a code -/

/-- Form by form, grouped by the bytes of the operation code, the operand and the register fields: for given registers
the operation code is one cell of the maps. A self move has no code (R81), nor has an assembler form (R83). -/
theorem hasCode_encode {i : Instr} (h : i.wellFormed = true) : HasCode (encode i) i := by
  cases i with
  | nop | rts | rti =>
    exact .single (.plain _)
  | extxDn n | extxuDn n | extxbDn n | extxbuDn n =>
    cases n <;> exact .single (.plain _)
  | movIndDm n m | movDmInd m n | movbDmInd m n | movbuIndDm n m | addDnDm n m | subDnDm n m =>
    cases n <;> cases m <;> exact .single (.plain _)
  | beq d | bne d | blt d | ble d | bge d | bgt d | bcs d | bls d | bcc d | bhi d | bra d =>
    exact .single (.op8 _ _)
  | movImm8Dn d n | addImm8Dn d n | addImm8An d n | cmpImm8Dn d n =>
    cases n <;> exact .single (.op8 _ _)
  | movD8Dm d n m | movD8Am d n m | movDmD8 m d n | movAmD8 m d n =>
    cases n <;> cases m <;> exact .single (.op8 _ _)
  | jmpLabel16 d | jsrLabel16 d =>
    exact .single (.op16 _ _)
  | movAbs16Dn d n | movDnAbs16 n d | movImm16Dn d n | movImm16An d n | movbDnAbs16 n d | movbuAbs16Dn d n
  | cmpImm16An d n =>
    cases n <;> exact .single (.op16 _ _)
  | movPswDn n | movDnPsw n | movMdrDn n | movDnMdr n | extDn n | notDn n | asrDn n | lsrDn n | rorDn n
  | rolDn n | jmpInd n | jsrInd n =>
    cases n <;> exact .paged rfl (.plain _)
  | movDmAn m n | movAnDm n m | movAnAm n m | addDmAn m n | addAnDm n m | addAnAm n m | addcDnDm n m
  | subDmAn m n | subAnDm n m | subAnAm n m | subcDnDm n m | mulDnDm n m | muluDnDm n m | divuDnDm n m
  | cmpDnDm n m | cmpDmAn m n | cmpAnDm n m | cmpAnAm n m | andDnDm n m | orDnDm n m | xorDnDm n m
  | bsetDmInd m n | bclrDmInd m n =>
    cases n <;> cases m <;> exact .paged rfl (.plain _)
  | movIdxDm x n m | movDmIdx m x n | movbIdxDm x n m | movbDmIdx m x n | movbuIdxDm x n m =>
    cases n <;> cases m <;> cases x <;> exact .paged rfl (.plain _)
  | bvc d | bvs d | bnc d | bns d | beqx d | bnex d | bltx d | blex d | bgex d | bgtx d | bcsx d | blsx d
  | bccx d | bhix d | bvcx d | bvsx d | bncx d | bnsx d =>
    exact .paged rfl (.op8 _ _)
  | addnfImm8An d n | andImm8Dn d n | orImm8Dn d n | btstImm8Dn d n =>
    cases n <;> exact .paged rfl (.op8 _ _)
  | movxD8Dm d n m | movxDmD8 m d n | movbD8Dm d n m | movbDmD8 m d n | movbuD8Dm d n m =>
    cases n <;> cases m <;> exact .paged rfl (.op8 _ _)
  | andImm16Psw d | orImm16Psw d =>
    exact .paged rfl (.op16 _ _)
  | movAbs16An d n | movAnAbs16 n d | addImm16Dn d n | addImm16An d n | subImm16Dn d n | subImm16An d n
  | cmpImm16Dn d n | andImm16Dn d n | orImm16Dn d n | xorImm16Dn d n | btstImm16Dn d n =>
    cases n <;> exact .paged rfl (.op16 _ _)
  | movD16Dm d n m | movD16Am d n m | movDmD16 m d n | movAmD16 m d n | movxD16Dm d n m | movxDmD16 m d n
  | movbD16Dm d n m | movbDmD16 m d n | movbuD16Dm d n m =>
    cases n <;> cases m <;> exact .paged rfl (.op16 _ _)
  | jmpLabel24 d | jsrLabel24 d =>
    exact .paged rfl (.op24 _ _)
  | movAbs24Dn d n | movAbs24An d n | movDnAbs24 n d | movAnAbs24 n d | movImm24Dn d n | movImm24An d n
  | movbAbs24Dn d n | movbDnAbs24 n d | movbuAbs24Dn d n | addImm24Dn d n | addImm24An d n | subImm24Dn d n
  | subImm24An d n | cmpImm24Dn d n | cmpImm24An d n =>
    cases n <;> exact .paged rfl (.op24 _ _)
  | movD24Dm d n m | movD24Am d n m | movDmD24 m d n | movAmD24 m d n | movxD24Dm d n m | movxDmD24 m d n
  | movbD24Dm d n m | movbDmD24 m d n | movbuD24Dm d n m =>
    cases n <;> cases m <;> exact .paged rfl (.op24 _ _)
  | movDnDm n m =>
    cases n <;> cases m
    case d0.d0 | d1.d1 | d2.d2 | d3.d3 => cases h
    all_goals exact .single (.plain _)
  | movIndAm | movAmInd | movbIndDm | movbAbs16Dn => cases h

/-- Settles O2: the encoding is a code, and the decoder answers every code. -/
theorem decodeUndoesEncode : Obligations.DecodeUndoesEncode := fun i _ h =>
  decode_eq_ok_iff.2 ⟨encode i, hasCode_encode h, rfl⟩

/-! A code is what the encoder writes -/

@[simp] theorem mod_four_lt (k : Nat) : k % 4 < 4 := Nat.mod_lt k (by decide)

@[simp] theorem DReg.num_ofNum : ∀ {k : Nat}, k < 4 → (DReg.ofNum k).num = k := by decide

@[simp] theorem AReg.num_ofNum : ∀ {k : Nat}, k < 4 → (AReg.ofNum k).num = k := by decide

theorem DReg.ofNum_mod_inj {j k : Nat} (h : DReg.ofNum (j % 4) = DReg.ofNum (k % 4)) : j % 4 = k % 4 := by
  rw [← DReg.num_ofNum (mod_four_lt j), h, DReg.num_ofNum (mod_four_lt k)]

@[simp] theorem opByte_toNat (base x y : Nat) : (opByte base x y).toNat = (base + 4 * x + y) % 256 :=
  BitVec.toNat_ofNat _ _

/-- A byte is its row of the map and its two register fields (R62, R65). -/
theorem toNat_eq_fields (b : Byte) : b.toNat = 16 * (b.toNat / 16) + 4 * (b.toNat / 4 % 4) + b.toNat % 4 := by omega

theorem movDnDm_wellFormed {n m : DReg} (h : n ≠ m) : (Instr.movDnDm n m).wellFormed = true := by
  simp [Instr.wellFormed, Instr.isAssemblerForm, Instr.isSelfMove, h]

/-- Every instruction the cell reads has a code, and the encoder writes this operation code before its operand. -/
def Entry.Encodes (code : List Byte) (e : Entry) : Prop :=
  ∀ d i, e.Reads d i → i.wellFormed = true ∧ encode i = code ++ d

/-- Row by row. Row 8 is MOV imm8,Dn where the two fields agree and MOV Dn,Dm where they differ (R81). The last cell of a
row stands for the one value of a field that the cells before it leave. -/
theorem firstByte_encodes (b : Byte) : (firstByte b).Encodes [b] := by
  unfold firstByte
  dsimp only
  repeat' split
  all_goals rintro _ _ ⟨⟩
  case isFalse.plain hne =>
    refine ⟨movDnDm_wellFormed fun h => hne (DReg.ofNum_mod_inj h), ?_⟩
    simp [encode, ← BitVec.toNat_inj]
    omega
  case isTrue.op8 hrow hself _ =>
    have hb := toNat_eq_fields b
    rw [hrow, ← hself] at hb
    refine ⟨rfl, ?_⟩
    simp [encode, ← BitVec.toNat_inj]
    omega
  all_goals
    refine ⟨rfl, ?_⟩
    simp [encode, ← BitVec.toNat_inj]
  all_goals try simp only [imp_false] at *
  all_goals omega

/-- The byte that names the second-byte map (R60). -/
def Prefix.byte : Prefix → Byte
  | .f0 => 0xF0 | .f1 => 0xF1 | .f2 => 0xF2 | .f3 => 0xF3 | .f4 => 0xF4 | .f5 => 0xF5 | .f7 => 0xF7

/-- Map by map and row by row: the row and the fields of `c` are those that the encoder puts together. -/
theorem secondByte_encodes (p : Prefix) (c : Byte) : (secondByte p c).Encodes [p.byte, c] := by
  cases p
  all_goals
    simp only [secondByte, pageF0, pageF1, pageF2, pageF3, pageF4, pageF5, pageF7]
    repeat' split
  all_goals rintro _ _ ⟨⟩
  all_goals
    refine ⟨rfl, ?_⟩
    simp [encode, Prefix.byte, ← BitVec.toNat_inj]
  all_goals try simp only [imp_false] at *
  all_goals omega

/-- The second-byte map a cell refers to, if it does. -/
def Entry.extension : Entry → Option Prefix
  | .extended p => some p
  | _ => none

theorem Entry.extension_eq_none {e : Entry} (h : ∀ p, e ≠ .extended p) : e.extension = none := by
  cases e with
  | extended p => exact absurd rfl (h p)
  | unassigned | plain | op8 | op16 | op24 => rfl

theorem eq_byte_of_mem_extension : ∀ b : Byte, ∀ p ∈ (firstByte b).extension, b = p.byte := by decide

theorem firstByte_eq_extended_iff {b : Byte} {p : Prefix} : firstByte b = .extended p ↔ b = p.byte := by
  constructor
  · exact fun h => eq_byte_of_mem_extension b p (by rw [h]; rfl)
  · rintro rfl
    cases p <;> rfl

theorem encode_of_hasCode {code : List Byte} {i : Instr} (h : HasCode code i) :
    i.wellFormed = true ∧ encode i = code := by
  cases h with
  | single hreads => exact firstByte_encodes _ _ _ hreads
  | paged hp hreads =>
    rw [firstByte_eq_extended_iff.1 hp]
    exact secondByte_encodes _ _ _ _ hreads

/-- Settles O3: what the decoder answers has the bytes read as its code, and a code is the encoding. -/
theorem decodeAnswersOnlyEncodings : Obligations.DecodeAnswersOnlyEncodings := by
  intro bs i rest h
  obtain ⟨code, hcode, rfl⟩ := decode_eq_ok_iff.1 h
  obtain ⟨hwf, rfl⟩ := encode_of_hasCode hcode
  exact ⟨hwf, rfl⟩

end Sys2Proof
end

section
/-! PROOFS. What the first bytes alone say: how long the instruction is (R60), and that there is none (R66 to R72, R80).
The decoder's maps and the spec's tables are compared at each of the 256 bytes; the rest follows for every run of bytes. -/

namespace Sys2Proof
open Machine

/-- The length of the instructions a cell reads, `k` bytes of operation code included; none where it reads none. -/
def Entry.length (k : Nat) : Entry → Option Nat
  | .unassigned | .extended _ => none
  | .plain _ => some k
  | .op8 _ => some (k + 1)
  | .op16 _ => some (k + 2)
  | .op24 _ => some (k + 3)

theorem Entry.Reads.length {e : Entry} {d : List Byte} {i : Instr} (h : e.Reads d i) (k : Nat) :
    e.length k = some (k + d.length) := by
  cases h <;> rfl

theorem operand_eq_undefined_iff {e : Entry} {bs : List Byte} (k : Nat) :
    operand e bs = .undefined ↔ e.length k = none := by
  cases e with
  | unassigned | extended => exact ⟨fun _ => rfl, fun _ => rfl⟩
  | plain | op8 | op16 | op24 => rcases bs with _ | ⟨_, _ | ⟨_, _ | ⟨_, _⟩⟩⟩ <;> simp [operand, Entry.length]

/-! The maps against the tables -/

theorem firstByte_length_of_extension : ∀ b : Byte, (firstByte b).extension = none →
    (firstByte b).length 1 = if b = 0xFF then none else some (firstByteLength b.toNat) := by decide

theorem firstByte_length {b : Byte} (h : ∀ p, firstByte b ≠ .extended p) :
    (firstByte b).length 1 = if b = 0xFF then none else some (firstByteLength b.toNat) :=
  firstByte_length_of_extension b (Entry.extension_eq_none h)

theorem secondByte_length (p : Prefix) (c : Byte) : (secondByte p c).length 2 =
    if unassignedSecond p.byte.toNat c.toNat then none else some (firstByteLength p.byte.toNat) := by
  revert c
  cases p <;> decide

theorem firstByteLength_eq_zero : ∀ {b : Byte}, firstByteLength b.toNat = 0 → b = 0xFF := by decide

/-- The tables of R66 to R72 are for the seven bytes that name a map only. -/
theorem eq_byte_of_unassignedSecond {b : Byte} {c : Nat} (h : unassignedSecond b.toNat c = true) :
    ∃ p : Prefix, b = p.byte := by
  simp only [← BitVec.toNat_inj]
  unfold unassignedSecond at h
  split at h
  next hb => exact ⟨.f0, hb⟩
  next hb => exact ⟨.f1, hb⟩
  next hb => exact ⟨.f2, hb⟩
  next hb => exact ⟨.f3, hb⟩
  next hb => exact ⟨.f4, hb⟩
  next hb => exact ⟨.f5, hb⟩
  next hb => exact ⟨.f7, hb⟩
  next => cases h

/-! The length -/

theorem encode_length (i : Instr) : (encode i).length = i.length := by
  cases i <;> rfl

theorem length_of_hasCode {b : Byte} {r : List Byte} {i : Instr} (h : HasCode (b :: r) i) :
    (b :: r).length = firstByteLength b.toNat := by
  cases h with
  | single hreads =>
    have hlen := firstByte_length hreads.ne_extended
    rw [hreads.length] at hlen
    split at hlen
    · cases hlen
    · rw [← Option.some.inj hlen, List.length_cons, Nat.add_comm]
  | @paged _ c p _ _ hp hreads =>
    obtain rfl := firstByte_eq_extended_iff.1 hp
    have hlen := secondByte_length p c
    rw [hreads.length] at hlen
    split at hlen
    · cases hlen
    · rw [← Option.some.inj hlen, List.length_cons, List.length_cons, Nat.add_comm 2]

/-- Settles O4: the bytes read are the instruction's code, whose length is the encoder's and the table's. -/
theorem firstByteGivesLength : Obligations.FirstByteGivesLength := by
  intro b bs
  refine ⟨fun i rest h => ?_, fun hzero => ?_⟩
  · obtain ⟨code, hcode, hbs⟩ := decode_eq_ok_iff.1 h
    have hlen : code.length = i.length := by rw [← (encode_of_hasCode hcode).2, encode_length]
    have htable : code.length = firstByteLength b.toNat := by
      cases code with
      | nil => cases hcode
      | cons b' r =>
        obtain ⟨rfl, -⟩ := List.cons.inj hbs
        exact length_of_hasCode hcode
    exact ⟨hlen.symm.trans htable, by rw [hbs, List.length_append, hlen]⟩
  · rw [firstByteLength_eq_zero hzero]
    rfl

/-! The unassigned codes -/

theorem decode_prefix_eq_undefined_iff (p : Prefix) (c : Byte) (bs : List Byte) :
    decode (p.byte :: c :: bs) = .undefined ↔ unassignedSecond p.byte.toNat c.toNat = true := by
  rw [decode_extended (firstByte_eq_extended_iff.2 rfl), operand_eq_undefined_iff 2, secondByte_length]
  simp

theorem decode_unextended_eq_undefined_iff {b : Byte} (h : ∀ p : Prefix, b ≠ p.byte) (bs : List Byte) :
    decode (b :: bs) = .undefined ↔ b = 0xFF := by
  have hplain : ∀ p, firstByte b ≠ .extended p := fun p hp => h p (firstByte_eq_extended_iff.1 hp)
  rw [decode_unextended hplain, operand_eq_undefined_iff 1, firstByte_length hplain]
  simp

theorem decode_byte_alone (p : Prefix) : decode [p.byte] = .short :=
  decode_extended_alone (firstByte_eq_extended_iff.2 rfl)

theorem Prefix.byte_ne_ff (p : Prefix) : p.byte ≠ 0xFF := by
  cases p <;> decide

/-- Settles O5: where the first byte names a map the second one decides, everywhere else the first one does. -/
theorem unassignedCodesAreTheListedOnes : Obligations.UnassignedCodesAreTheListedOnes := by
  intro bs
  constructor
  · intro h
    cases bs with
    | nil => cases h
    | cons b r =>
      refine ⟨b, r, rfl, ?_⟩
      by_cases hprefix : ∃ p : Prefix, b = p.byte
      · obtain ⟨p, rfl⟩ := hprefix
        cases r with
        | nil => rw [decode_byte_alone] at h; cases h
        | cons c r => exact .inr ⟨c, r, rfl, (decode_prefix_eq_undefined_iff p c r).1 h⟩
      · exact .inl ((decode_unextended_eq_undefined_iff (not_exists.1 hprefix) r).1 h)
  · rintro ⟨b, r, rfl, rfl | ⟨c, r, rfl, hc⟩⟩
    · exact (decode_unextended_eq_undefined_iff (fun p => p.byte_ne_ff.symm) r).2 rfl
    · obtain ⟨p, rfl⟩ := eq_byte_of_unassignedSecond hc
      exact (decode_prefix_eq_undefined_iff p c r).2 hc

end Sys2Proof

namespace Sys2Proof.Machine

/-! The fetch of an unassigned code (R80) -/

variable {s : State} {k : Instr → State → Result}

theorem fetchFrom_undefined {acc : List Byte} (h : decode acc = .undefined) (fuel : Nat) :
    fetchFrom (fuel + 1) acc s k = .refused (.undefinedInstruction acc) := by
  simp only [fetchFrom, h]

/-- With nothing presented, a step fetches the byte at pc and goes on from it. -/
theorem step_of_fetchesMemory (he : s.events = []) (hmemory : s.fetchesMemory s.pc.toNat = true) :
    step s = fetchFrom 5 [s.byteAt s.pc.toNat] s exec := by
  have hpc : s.pc + BitVec.ofNat 24 ([] : List Byte).length = s.pc := BitVec.add_zero s.pc
  rw [step_noEvent he, runInstruction, fetch, fetchFrom_short rfl, hpc, fetchByte_of_fetchesMemory hmemory,
    List.nil_append]

/-- Settles O7: 0xFF is refused at once, the other codes after their second byte. -/
theorem stepRefusesUnassignedCode : Obligations.StepRefusesUnassignedCode := by
  intro s he hmemory
  rw [step_of_fetchesMemory he hmemory]
  refine ⟨fun hb => ?_, fun hmemory' hsecond => ?_⟩
  · rw [hb]
    exact fetchFrom_undefined rfl 4
  · obtain ⟨p, hp⟩ := eq_byte_of_unassignedSecond hsecond
    rw [hp] at hsecond ⊢
    have hundefined := (decode_prefix_eq_undefined_iff p _ []).2 hsecond
    rw [fetchFrom_short (decode_byte_alone p)]
    exact (fetchByte_of_fetchesMemory hmemory' _).trans (fetchFrom_undefined hundefined 3)

end Sys2Proof.Machine
end

section
/-! PROOFS. MOV, MOVX and EXT (R101 to R146, R170). What a form does follows from the shape of its meaning, which is a
move, a load or a store with the form's own length; here each shape gets its statement once, for every instruction that
has it. -/

namespace Sys2Proof.Machine

variable {i : Instr} {s : State} {ea v : Ptr}

/-! Updates inside the frame -/

theorem sameFrame_setMdr (s : State) (w : Word) : SameFrame s (s.setMdr w) :=
  ⟨State.setMdr_d s w, State.setMdr_a s w, rfl, rfl, rfl, rfl, rfl⟩

theorem sameFrame_setPsw (s : State) (w : Word) : SameFrame s (s.setPsw w) :=
  ⟨State.setPsw_d s w, State.setPsw_a s w, rfl, rfl, rfl, rfl, rfl⟩

theorem sameFrame_consume (s : State) (n : Nat) : SameFrame s (s.consume n) :=
  ⟨State.consume_d s n, State.consume_a s n, rfl, rfl, rfl, rfl, rfl⟩

/-! Moves -/

theorem setsD_of_moveD {r : DReg} (h : exec i s = moveD r v i.length s) : SetsD i s r v s.psw :=
  setsD_of (.refl s) h rfl rfl rfl

theorem setsA_of_moveA {r : AReg} (h : exec i s = moveA r v i.length s) : SetsA i s r v s.psw :=
  setsA_of (.refl s) h rfl rfl rfl

/-! Loads that may be made -/

theorem setsD_of_loadWordToD {r : DReg} (h : exec i s = loadWordToD ea r i.length s) (hload : Loadable s ea 2) :
    SetsD i s r ((s.peek16 ea).signExtend 24) s.psw :=
  setsD_of (sameFrame_afterRead s ea 2) (h.trans (load16_eq hload _)) rfl (afterRead_psw s ea 2) (afterRead_mdr s ea 2)

theorem setsD_of_loadPtrToD {r : DReg} (h : exec i s = loadPtrToD ea r i.length s) (hload : Loadable s ea 3) :
    SetsD i s r (s.peek24 ea) s.psw :=
  setsD_of (sameFrame_afterRead s ea 3) (h.trans (load24_eq hload _)) rfl (afterRead_psw s ea 3) (afterRead_mdr s ea 3)

theorem setsA_of_loadPtrToA {r : AReg} (h : exec i s = loadPtrToA ea r i.length s) (hload : Loadable s ea 3) :
    SetsA i s r (s.peek24 ea) s.psw :=
  setsA_of (sameFrame_afterRead s ea 3) (h.trans (load24_eq hload _)) rfl (afterRead_psw s ea 3) (afterRead_mdr s ea 3)

/-! Stores that may be made -/

theorem storesAt_of_storeBytes {bytes : List Byte} (h : exec i s = storeBytes ea bytes i.length s) (hs : s.Inv)
    (hfits : bytes.length ≤ 2 ^ 24) (hstore : Storable s ea bytes.length) : StoresAt i s ea bytes s.psw :=
  storesAt_of hs hfits (h.trans (store_eq hstore _)) rfl

theorem storesAt_of_storeWord (h : exec i s = storeWord ea v i.length s) (hs : s.Inv) (hstore : Storable s ea 2) :
    StoresAt i s ea (twoBytes v) s.psw := by
  rw [storeWord, le16_low16] at h
  exact storesAt_of_storeBytes h hs (by simp [twoBytes]) hstore

theorem storesAt_of_storePtr (h : exec i s = storePtr ea v i.length s) (hs : s.Inv) (hstore : Storable s ea 3) :
    StoresAt i s ea (threeBytes v) s.psw :=
  storesAt_of_storeBytes (bytes := threeBytes v) h hs (by simp [threeBytes]) hstore

/-! The assembler forms: a displacement of zero is none (R116, R129) -/

theorem exec_movIndAm (n m : AReg) (s : State) : exec (.movIndAm n m) s = loadPtrToA (s.eaInd n) m 2 s :=
  congrArg (loadPtrToA · m 2 s) (eaD8_zero s n)

theorem exec_movAmInd (m n : AReg) (s : State) : exec (.movAmInd m n) s = storePtr (s.eaInd n) (s.a m) 2 s :=
  congrArg (storePtr · (s.a m) 2 s) (eaD8_zero s n)

/-! The statements -/

/-- Settles O15: the seven forms are word loads, each at its own effective address. -/
theorem wordLoads : Obligations.WordLoads := fun _ _ _ _ _ _ _ =>
  ⟨setsD_of_loadWordToD rfl, setsD_of_loadWordToD rfl, setsD_of_loadWordToD rfl, setsD_of_loadWordToD rfl,
    setsD_of_loadWordToD rfl, setsD_of_loadWordToD rfl, setsD_of_loadWordToD rfl⟩

/-- Settles O16: six loads into an address register, the assembler form the first, and three into a data register. -/
theorem pointerLoads : Obligations.PointerLoads := fun s n m _ _ _ _ =>
  ⟨setsA_of_loadPtrToA (exec_movIndAm n m s), setsA_of_loadPtrToA rfl, setsA_of_loadPtrToA rfl, setsA_of_loadPtrToA rfl,
    setsA_of_loadPtrToA rfl, setsA_of_loadPtrToA rfl,
    setsD_of_loadPtrToD rfl, setsD_of_loadPtrToD rfl, setsD_of_loadPtrToD rfl⟩

/-- Settles O19: the seven forms are word stores, each at its own effective address. -/
theorem wordStores : Obligations.WordStores := by
  intro s n m x d8 d16 d24 hs bytes
  exact ⟨storesAt_of_storeWord rfl hs, storesAt_of_storeWord rfl hs, storesAt_of_storeWord rfl hs,
    storesAt_of_storeWord rfl hs, storesAt_of_storeWord rfl hs, storesAt_of_storeWord rfl hs,
    storesAt_of_storeWord rfl hs⟩

/-- Settles O20: six stores of an address register, the assembler form the first, and three of a data register. -/
theorem pointerStores : Obligations.PointerStores := by
  intro s n m r d8 d16 d24 hs three
  exact ⟨storesAt_of_storePtr (exec_movAmInd m n s) hs, storesAt_of_storePtr rfl hs, storesAt_of_storePtr rfl hs,
    storesAt_of_storePtr rfl hs, storesAt_of_storePtr rfl hs, storesAt_of_storePtr rfl hs,
    storesAt_of_storePtr rfl hs, storesAt_of_storePtr rfl hs, storesAt_of_storePtr rfl hs⟩

/-- Settles O1: the decoder evaluates on each of the twelve codes. -/
theorem decodeReadsWordsOfTheSpec : Obligations.DecodeReadsWordsOfTheSpec :=
  ⟨rfl, rfl, rfl, rfl, rfl, rfl, rfl, rfl, rfl, rfl, rfl, rfl⟩

/-- Settles O9: every form is a move, of a register or of an immediate as its rule widens it. -/
theorem registerAndImmediateMoves : Obligations.RegisterAndImmediateMoves := fun _ _ _ _ _ _ _ _ =>
  ⟨setsA_of_moveA rfl, setsD_of_moveD rfl, setsD_of_moveD rfl, setsA_of_moveA rfl, setsD_of_moveD rfl,
    setsD_of_moveD rfl, setsD_of_moveD rfl, setsD_of_moveD rfl, setsA_of_moveA rfl, setsA_of_moveA rfl⟩

/-- Settles O10: bit 15 is the second free bit that the read of PSW draws, bit 14 the first (R23). -/
theorem movPswDnReadsPsw : Obligations.MovPswDnReadsPsw := fun s _ =>
  ⟨s.freeBit 1, s.freeBit 0, setsD_of (sameFrame_consume s 2) rfl rfl rfl rfl⟩

/-- Settles O11: each form is one write of PSW or of MDR. -/
theorem pswAndMdrWrites : Obligations.PswAndMdrWrites := fun s n =>
  ⟨setsPswMdr_of (sameFrame_setPsw s ((s.d n).extractLsb' 0 16)) rfl rfl rfl rfl,
    setsPswMdr_of (sameFrame_setMdr s ((s.d n).extractLsb' 0 16)) rfl rfl rfl rfl,
    setsPswMdr_of (sameFrame_setMdr s (if (s.d n).getLsbD 15 then 0xFFFF else 0)) rfl rfl rfl rfl⟩

end Sys2Proof.Machine
end

section
/-! PROOFS. MOVB, MOVBU and the EXTX family (R148 to R174). Each form is a byte load, a byte store or a move, and has its
statement from that shape. The two assembler forms of MOVB (R83) are a MOVBU and an EXTXB in a row; run together they are
one signed byte load, whose length is that of both. -/

namespace Sys2Proof.Machine

variable {i : Instr} {s : State} {ea v : Ptr}

/-! Byte loads and stores that may be made -/

theorem setsD_of_loadSignedByteToD {r : DReg} (h : exec i s = loadSignedByteToD ea r i.length s)
    (hload : Loadable s ea 1) : SetsD i s r ((s.peek8 ea).signExtend 24) s.psw :=
  setsD_of (sameFrame_afterRead s ea 1) (h.trans (load8_eq hload _)) rfl (afterRead_psw s ea 1) (afterRead_mdr s ea 1)

theorem setsD_of_loadZeroByteToD {r : DReg} (h : exec i s = loadZeroByteToD ea r i.length s)
    (hload : Loadable s ea 1) : SetsD i s r ((s.peek8 ea).zeroExtend 24) s.psw :=
  setsD_of (sameFrame_afterRead s ea 1) (h.trans (load8_eq hload _)) rfl (afterRead_psw s ea 1) (afterRead_mdr s ea 1)

theorem storesAt_of_storeByte (h : exec i s = storeByte ea v i.length s) (hs : s.Inv) (hstore : Storable s ea 1) :
    StoresAt i s ea [v.extractLsb' 0 8] s.psw :=
  storesAt_of_storeBytes (bytes := [v.extractLsb' 0 8]) h hs (by simp) hstore

/-! Two updates in a row -/

theorem setD_setD (s : State) (r : DReg) (x y : Ptr) : (s.setD r x).setD r y = s.setD r y := by
  cases r <;> rfl

theorem setD_advance (s : State) (r : DReg) (x : Ptr) (len : Nat) :
    (s.advance len).setD r x = (s.setD r x).advance len := by
  cases r <;> rfl

theorem advance_advance (s : State) (m n : Nat) : (s.advance m).advance n = s.advance (m + n) := by
  simp [State.advance, State.nextPc, BitVec.ofNat_add, BitVec.add_assoc]

/-- Of two moves to one register the second one stays, and pc passes both. -/
theorem moveD_moveD (s : State) (r : DReg) (x y : Ptr) (m n : Nat) :
    moveD r y n ((s.setD r x).advance m) = moveD r y (m + n) s := by
  rw [moveD, setD_advance, setD_setD, advance_advance, moveD]

/-! The assembler forms: MOVBU, then EXTXB (R83, R149, R154) -/

theorem low8_zextByte (b : Byte) : low8 (zextByte b) = b :=
  (BitVec.extractLsb'_setWidth_of_le (by decide)).trans BitVec.extractLsb'_eq_self

/-- What follows a load follows whatever the load goes on with; a stop stays the same stop. -/
theorem andThen_load8 (k : Byte → State → Result) (second : State → Result) :
    andThen (load8 ea s k) second = load8 ea s fun b t => andThen (k b t) second := by
  unfold load8
  cases s.checkAccess ea 1 <;> rfl

theorem loadZeroByteToD_andThen_extend (r : DReg) (len : Nat) :
    (andThen (loadZeroByteToD ea r len s) fun t => moveD r (sextByte (low8 (t.d r))) 1 t) =
      loadSignedByteToD ea r (len + 1) s := by
  rw [loadZeroByteToD, andThen_load8, loadSignedByteToD]
  congr with b t
  calc andThen (moveD r (zextByte b) len t) (fun u => moveD r (sextByte (low8 (u.d r))) 1 u)
      = moveD r (sextByte (low8 (zextByte b))) 1 ((t.setD r (zextByte b)).advance len) := by simp [andThen, moveD]
    _ = moveD r (sextByte b) (len + 1) t := by rw [moveD_moveD, low8_zextByte]

theorem exec_movbIndDm (n : AReg) (m : DReg) (s : State) :
    exec (.movbIndDm n m) s = loadSignedByteToD (s.eaInd n) m 2 s :=
  loadZeroByteToD_andThen_extend m 1

theorem exec_movbAbs16Dn (addr : Word) (n : DReg) (s : State) :
    exec (.movbAbs16Dn addr n) s = loadSignedByteToD (eaAbs16 addr) n 4 s :=
  loadZeroByteToD_andThen_extend n 3

/-! The statements -/

/-- Settles O17: the seven forms are signed byte loads, the two assembler forms by their expansions. -/
theorem signedByteLoads : Obligations.SignedByteLoads := fun s n m _ _ d16 _ =>
  ⟨setsD_of_loadSignedByteToD (exec_movbIndDm n m s), setsD_of_loadSignedByteToD rfl, setsD_of_loadSignedByteToD rfl,
    setsD_of_loadSignedByteToD rfl, setsD_of_loadSignedByteToD rfl,
    setsD_of_loadSignedByteToD (exec_movbAbs16Dn d16 m s), setsD_of_loadSignedByteToD rfl⟩

/-- Settles O18: the seven forms are zero-extending byte loads, each at its own effective address. -/
theorem zeroExtendedByteLoads : Obligations.ZeroExtendedByteLoads := fun _ _ _ _ _ _ _ =>
  ⟨setsD_of_loadZeroByteToD rfl, setsD_of_loadZeroByteToD rfl, setsD_of_loadZeroByteToD rfl,
    setsD_of_loadZeroByteToD rfl, setsD_of_loadZeroByteToD rfl, setsD_of_loadZeroByteToD rfl,
    setsD_of_loadZeroByteToD rfl⟩

/-- Settles O21: the seven forms are byte stores, each at its own effective address. -/
theorem byteStores : Obligations.ByteStores := by
  intro s n m x d8 d16 d24 hs byte
  exact ⟨storesAt_of_storeByte rfl hs, storesAt_of_storeByte rfl hs, storesAt_of_storeByte rfl hs,
    storesAt_of_storeByte rfl hs, storesAt_of_storeByte rfl hs, storesAt_of_storeByte rfl hs,
    storesAt_of_storeByte rfl hs⟩

/-- Settles O12: the code bytes are the encodings of four well-formed forms, and each form is one move. -/
theorem extensionsInPlace : Obligations.ExtensionsInPlace := fun _ n rest =>
  ⟨decodeUndoesEncode (.extxDn n) rest rfl, setsD_of_moveD rfl, decodeUndoesEncode (.extxuDn n) rest rfl,
    setsD_of_moveD rfl, decodeUndoesEncode (.extxbDn n) rest rfl, setsD_of_moveD rfl,
    decodeUndoesEncode (.extxbuDn n) rest rfl, setsD_of_moveD rfl⟩

end Sys2Proof.Machine
end

section
/-! PROOFS. The flags of additions and subtractions as numbers (R19, R180, R181). A sum or difference of two signed words
with a carry leaves the signed range by less than one turn, so the result's sign is wrong exactly when it leaves the range.
This is said once for integers and once for each width; the flags of 24 bits and those of the low word are two cases of it. -/

namespace Sys2Proof.Machine

/-! Signed overflow of integers -/

/-- Less than one turn out of range, reduction to the signed range is a step back by one turn. -/
theorem bmod_of_lt_one_turn {half : Nat} {x : Int} (hlow : -(2 * half) ≤ x) (hhigh : x < 2 * half) :
    x.bmod (2 * half) = if x < -half then x + 2 * half else if half ≤ x then x - 2 * half else x := by
  split
  · rw [← Int.add_bmod_right, Int.bmod_eq_of_le_mul_two] <;> push_cast <;> omega
  · split
    · rw [← Int.sub_bmod_right, Int.bmod_eq_of_le_mul_two] <;> push_cast <;> omega
    · rw [Int.bmod_eq_of_le_mul_two] <;> push_cast <;> omega

/-- Equal signs and a result of the other sign: the sum, with a carry of 0 or 1, is out of range. -/
theorem sign_wrong_iff_out_of_range {half : Nat} {x y c : Int} (hx : -half ≤ x ∧ x < half) (hy : -half ≤ y ∧ y < half)
    (hc : 0 ≤ c ∧ c ≤ 1) :
    ((x < 0 ↔ y < 0) ∧ ¬((x + y + c).bmod (2 * half) < 0 ↔ x < 0)) ↔ x + y + c < -half ∨ half ≤ x + y + c := by
  rw [bmod_of_lt_one_turn (by omega) (by omega)]
  split_ifs <;> omega

/-! Words as numbers, at any width -/

theorem msb_iff_toInt_neg {w : Nat} (a : BitVec w) : a.msb = true ↔ a.toInt < 0 := by
  rw [BitVec.msb_eq_toInt, decide_eq_true_iff]

theorem eq_zero_iff_toNat {w : Nat} (a : BitVec w) : a = 0 ↔ a.toNat = 0 := by
  rw [BitVec.toNat_eq]
  exact Iff.rfl

theorem eq_zero_iff_toInt {w : Nat} (a : BitVec w) : a = 0 ↔ a.toInt = 0 := by
  rw [← BitVec.toInt_inj, show (0 : BitVec w).toInt = 0 from BitVec.toInt_zero]

theorem toNat_ofInt_eq_emod (w : Nat) (x : Int) : ((BitVec.ofInt w x).toNat : Int) = x % 2 ^ w := by
  rw [BitVec.toNat_ofInt, Int.toNat_of_nonneg (Int.emod_nonneg _ (by positivity)), Nat.cast_pow, Nat.cast_ofNat]

/-! Signed overflow of words, at any width -/

theorem toInt_bounds {w : Nat} (a : BitVec (w + 1)) :
    -((2 ^ w : Nat) : Int) ≤ a.toInt ∧ a.toInt < ((2 ^ w : Nat) : Int) := by
  simpa using And.intro (BitVec.le_toInt a) (BitVec.toInt_lt (x := a))

theorem carry_bounds (c : Bool) : (0 : Int) ≤ c.toNat ∧ (c.toNat : Int) ≤ 1 := by cases c <;> decide

/-- The sum with a carry, at any width. -/
theorem add_sign_wrong_iff {w : Nat} (a b : BitVec (w + 1)) (c : Bool) :
    ((a.msb == b.msb) && ((a + b + BitVec.ofNat (w + 1) c.toNat).msb != a.msb)) = true ↔
      a.toInt + b.toInt + c.toNat < -2 ^ w ∨ 2 ^ w ≤ a.toInt + b.toInt + c.toNat := by
  have hresult : (a + b + BitVec.ofNat (w + 1) c.toNat).toInt = (a.toInt + b.toInt + c.toNat).bmod (2 * 2 ^ w) := by
    simp only [BitVec.toInt_add, BitVec.toInt_ofNat', Int.add_bmod_bmod, Int.bmod_add_bmod, Nat.pow_succ']
  have hrange := sign_wrong_iff_out_of_range (toInt_bounds a) (toInt_bounds b) (carry_bounds c)
  rw [← hresult] at hrange
  simpa [BitVec.msb_eq_toInt] using hrange

/-- The difference with a borrow is the sum with the complement, whose sign is the other one, and the carry that the
borrow leaves. -/
theorem sub_sign_wrong_iff {w : Nat} (a b : BitVec (w + 1)) (c : Bool) :
    ((a.msb != b.msb) && ((a - b - BitVec.ofNat (w + 1) c.toNat).msb != a.msb)) = true ↔
      a.toInt - b.toInt - c.toNat < -2 ^ w ∨ 2 ^ w ≤ a.toInt - b.toInt - c.toNat := by
  have hsum : a.toInt - b.toInt - c.toNat = a.toInt + (-1 - b.toInt) + (1 - c.toNat) := by ring
  have hresult : (a - b - BitVec.ofNat (w + 1) c.toNat).toInt =
      (a.toInt + (-1 - b.toInt) + (1 - c.toNat)).bmod (2 * 2 ^ w) := by
    rw [← hsum]
    simp only [BitVec.toInt_sub, BitVec.toInt_ofNat', Int.sub_bmod_bmod, Int.bmod_sub_bmod, Nat.pow_succ']
  have hb := toInt_bounds b
  have hc := carry_bounds c
  have hrange := sign_wrong_iff_out_of_range (y := -1 - b.toInt) (c := 1 - c.toNat) (toInt_bounds a)
    (by omega) (by omega)
  have hsigns : (a.toInt < 0 ↔ -1 - b.toInt < 0) ↔ ¬(a.toInt < 0 ↔ b.toInt < 0) := by omega
  rw [← hresult, ← hsum, hsigns] at hrange
  simpa only [bne_iff_ne, Bool.and_eq_true, BitVec.msb_eq_toInt, ne_eq, decide_eq_decide, Nat.cast_pow,
    Nat.cast_ofNat] using hrange

/-! The low word -/

theorem low16_sub (a b : Ptr) : (a - b).extractLsb' 0 16 = a.extractLsb' 0 16 - b.extractLsb' 0 16 := by
  rw [eq_sub_iff_add_eq, ← BitVec.extractLsb'_add (by decide), sub_add_cancel]

theorem msb_low16 (a : Ptr) : (a.extractLsb' 0 16).msb = a.getLsbD 15 := by
  simp [BitVec.msb_eq_getLsbD_last]

theorem low16Nat_eq (a : Ptr) : low16Nat a = (a.extractLsb' 0 16).toNat := by
  simp [low16Nat]

theorem low16Nat_eq_zero_iff (a : Ptr) : low16Nat a = 0 ↔ a.extractLsb' 0 16 = 0 := by
  rw [low16Nat_eq, eq_zero_iff_toNat]

theorem low16_getLsbD_iff_toInt_neg (a : Ptr) : a.getLsbD 15 = true ↔ (a.extractLsb' 0 16).toInt < 0 := by
  rw [← msb_low16, msb_iff_toInt_neg]

theorem sub_neg_iff_borrow (x y c : Nat) : (x : Int) - y - c < 0 ↔ x < y + c := by omega

/-! Results -/

theorem addResult_eq (a b : Ptr) (c : Bool) : addResult a b c = a + b + BitVec.ofNat 24 c.toNat := by
  simp [addResult, BitVec.ofNat_add]

theorem subResult_eq (a b : Ptr) (c : Bool) : subResult a b c = a - b - BitVec.ofNat 24 c.toNat := by
  simp [subResult, sub_eq_add_neg, BitVec.ofInt_add, BitVec.ofInt_neg]

theorem low16_addResult (a b : Ptr) (c : Bool) :
    (addResult a b c).extractLsb' 0 16 = a.extractLsb' 0 16 + b.extractLsb' 0 16 + BitVec.ofNat 16 c.toNat := by
  rw [addResult_eq, BitVec.extractLsb'_add (by decide), BitVec.extractLsb'_add (by decide)]
  cases c <;> rfl

theorem low16_subResult (a b : Ptr) (c : Bool) :
    (subResult a b c).extractLsb' 0 16 = a.extractLsb' 0 16 - b.extractLsb' 0 16 - BitVec.ofNat 16 c.toNat := by
  rw [subResult_eq, low16_sub, low16_sub]
  cases c <;> rfl

theorem toNat_subResult (a b : Ptr) (c : Bool) :
    ((subResult a b c).toNat : Int) = ((a.toNat : Int) - b.toNat - c.toNat) % 2 ^ 24 :=
  toNat_ofInt_eq_emod 24 _

/-! The flags, as numbers -/

/-- Settles O22: 24 bits and the low word are two cases of the sum at any width; carry and zero are the formulas
of the model, read on words. -/
theorem addFlagsMeanOverflowAndCarry : Obligations.AddFlagsMeanOverflowAndCarry := by
  intro a b c r f lo
  have hword : lo r = lo a + lo b + BitVec.ofNat 16 c.toNat := low16_addResult a b c
  refine ⟨BitVec.toNat_ofNat _ _, ?_, decide_eq_true_iff, ?_, decide_eq_true_iff, ?_, ?_, ?_, ?_⟩
  · have hvx := add_sign_wrong_iff (w := 23) a b c
    rwa [← addResult_eq] at hvx
  · exact msb_iff_toInt_neg r
  · have hvf := add_sign_wrong_iff (w := 15) (lo a) (lo b) c
    rwa [← hword, msb_low16, msb_low16, msb_low16] at hvf
  · simp only [f, addFlags, low16Nat_eq, decide_eq_true_iff, lo]
  · exact low16_getLsbD_iff_toInt_neg r
  · exact decide_eq_true_iff.trans (low16Nat_eq_zero_iff r)

/-- Settles O23: the same two cases of the difference. -/
theorem subFlagsMeanOverflowAndBorrow : Obligations.SubFlagsMeanOverflowAndBorrow := by
  intro a b c r f lo
  have hword : lo r = lo a - lo b - BitVec.ofNat 16 c.toNat := low16_subResult a b c
  refine ⟨toNat_subResult a b c, ?_, ?_, ?_, decide_eq_true_iff, ?_, ?_, ?_, ?_⟩
  · have hvx := sub_sign_wrong_iff (w := 23) a b c
    rwa [← subResult_eq] at hvx
  · exact decide_eq_true_iff.trans (sub_neg_iff_borrow _ _ _)
  · exact msb_iff_toInt_neg r
  · have hvf := sub_sign_wrong_iff (w := 15) (lo a) (lo b) c
    rwa [← hword, msb_low16, msb_low16, msb_low16] at hvf
  · simp only [f, subFlags, low16Nat_eq, decide_eq_true_iff, lo, sub_neg_iff_borrow]
  · exact low16_getLsbD_iff_toInt_neg r
  · exact decide_eq_true_iff.trans (low16Nat_eq_zero_iff r)

end Sys2Proof.Machine
end

section
/-! PROOFS. ADD, SUB, CMP and the forms with a carry (R183 to R203, R207 to R215). Each form is an addition, a subtraction
or a comparison with its own operands and its own length; each of these shapes gets its statement once. -/

namespace Sys2Proof.Machine

variable {i : Instr} {s : State} {v : Ptr}

/-! The shapes of meaning -/

/-- A result in a data register together with all eight flags. -/
theorem setsD_of_setFlags {r : DReg} {f : ResultFlags} (h : exec i s = moveD r v i.length (s.setFlags f)) :
    SetsD i s r v (pswSetFlags s.psw f) :=
  setsD_of (sameFrame_setFlags s f) h rfl rfl rfl

/-- A result in an address register together with all eight flags. -/
theorem setsA_of_setFlags {r : AReg} {f : ResultFlags} (h : exec i s = moveA r v i.length (s.setFlags f)) :
    SetsA i s r v (pswSetFlags s.psw f) :=
  setsA_of (sameFrame_setFlags s f) h rfl rfl rfl

theorem setsD_of_addToD {r : DReg} (h : exec i s = addToD r v i.length s) :
    SetsD i s r (addResult (s.d r) v false) (pswSetFlags s.psw (addFlags (s.d r) v false)) :=
  setsD_of_setFlags h

theorem setsA_of_addToA {r : AReg} (h : exec i s = addToA r v i.length s) :
    SetsA i s r (addResult (s.a r) v false) (pswSetFlags s.psw (addFlags (s.a r) v false)) :=
  setsA_of_setFlags h

theorem setsD_of_subFromD {r : DReg} (h : exec i s = subFromD r v i.length s) :
    SetsD i s r (subResult (s.d r) v false) (pswSetFlags s.psw (subFlags (s.d r) v false)) :=
  setsD_of_setFlags h

theorem setsA_of_subFromA {r : AReg} (h : exec i s = subFromA r v i.length s) :
    SetsA i s r (subResult (s.a r) v false) (pswSetFlags s.psw (subFlags (s.a r) v false)) :=
  setsA_of_setFlags h

theorem setsPswMdr_of_compare {dest src : Ptr} (h : exec i s = compare dest src i.length s) :
    SetsPswMdr i s (pswSetFlags s.psw (subFlags dest src false)) s.mdr :=
  setsPswMdr_of (sameFrame_setFlags s (subFlags dest src false)) h rfl rfl rfl

/-! ZF accumulates (R193, R203) -/

/-- The accumulated flags in the words of the statements, for flags whose ZF is the zero test of `x`'s low word. -/
theorem accumulateZF_eq {f : ResultFlags} {x : Ptr} (hzf : f.zf = decide (low16Nat x = 0)) (z : Bool) :
    f.accumulateZF z = { f with zf := z && decide (x.extractLsb' 0 16 = 0) } := by
  simp only [ResultFlags.accumulateZF, hzf, low16Nat_eq_zero_iff]

/-! The statements -/

/-- Settles O25: every form is an addition to its destination, of a register or of an immediate as its rule widens it. -/
theorem addForms : Obligations.AddForms := fun _ _ _ _ _ _ _ _ =>
  ⟨setsD_of_addToD rfl, setsA_of_addToA rfl, setsD_of_addToD rfl, setsA_of_addToA rfl, setsD_of_addToD rfl,
    setsD_of_addToD rfl, setsD_of_addToD rfl, setsA_of_addToA rfl, setsA_of_addToA rfl, setsA_of_addToA rfl⟩

/-- Settles O26: every form is a subtraction from its destination. -/
theorem subForms : Obligations.SubForms := fun _ _ _ _ _ _ _ =>
  ⟨setsD_of_subFromD rfl, setsA_of_subFromA rfl, setsD_of_subFromD rfl, setsA_of_subFromA rfl, setsD_of_subFromD rfl,
    setsD_of_subFromD rfl, setsA_of_subFromA rfl, setsA_of_subFromA rfl⟩

/-- Settles O27: every form is a comparison; that of an address register with 16 bits widens them by zeros (R214). -/
theorem compareForms : Obligations.CompareForms := fun _ _ _ _ _ _ _ _ =>
  ⟨setsPswMdr_of_compare rfl, setsPswMdr_of_compare rfl, setsPswMdr_of_compare rfl, setsPswMdr_of_compare rfl,
    setsPswMdr_of_compare rfl, setsPswMdr_of_compare rfl, setsPswMdr_of_compare rfl, setsPswMdr_of_compare rfl,
    setsPswMdr_of_compare rfl⟩

/-- Settles O28: ADDC and SUBC are the addition and the subtraction with CF in, ZF accumulated; ADDNF is a move of the
sum. -/
theorem carryFormsAndAddnf : Obligations.CarryFormsAndAddnf := by
  intro s n m a imm8 c z
  refine ⟨?_, ?_, setsA_of_moveA rfl⟩
  · intro r f
    have hflags := accumulateZF_eq (f := f) (x := r) rfl z
    exact hflags ▸ setsD_of_setFlags rfl
  · intro r f
    have hflags := accumulateZF_eq (f := f) (x := r) rfl z
    exact hflags ▸ setsD_of_setFlags rfl

end Sys2Proof.Machine
end

section
/-! PROOFS. 32-bit arithmetic in two instructions (R217): ADD then ADDC, SUB then SUBC. A pair of registers is the number
whose low word is in one and whose high word is in the other; the low words' carry or borrow is what the high words take
in, so the flags of the high words are those of the pairs. -/

namespace Sys2Proof.Machine

/-! Pairs of words -/

section
variable {h l h' l' : Word} {c : Bool}

theorem toNat_pair (h l : Word) : (h ++ l).toNat = h.toNat * 2 ^ 16 + l.toNat := by
  rw [BitVec.toNat_append, ← Nat.shiftLeft_add_eq_or_of_lt l.isLt, Nat.shiftLeft_eq]

theorem toInt_pair (h l : Word) : (h ++ l).toInt = h.toInt * 2 ^ 16 + l.toNat := by
  rw [BitVec.toInt_append, if_neg (by decide), mul_comm]

theorem pair_toInt_neg_iff (h l : Word) : (h ++ l).toInt < 0 ↔ h.toInt < 0 := by
  rw [toInt_pair]; omega

theorem pair_eq_zero_iff (h l : Word) : (h ++ l : BitVec 32) = 0 ↔ l = 0 ∧ h = 0 := by
  rw [eq_zero_iff_toNat, eq_zero_iff_toNat, eq_zero_iff_toNat, toNat_pair]
  omega

theorem toNat_of_iff {p : Prop} [Decidable p] (hc : c = true ↔ p) : c.toNat = if p then 1 else 0 := by
  rw [Bool.toNat, Bool.cond_eq_ite, if_congr hc rfl rfl]

/-- The carry out of the low words goes into the high ones. -/
theorem pair_add (hc : c = true ↔ 2 ^ 16 ≤ l.toNat + l'.toNat) :
    (h + h' + BitVec.ofNat 16 c.toNat) ++ (l + l') = (h ++ l) + (h' ++ l') := by
  apply BitVec.eq_of_toNat_eq
  simp only [toNat_pair, BitVec.toNat_add, BitVec.toNat_ofNat, toNat_of_iff hc]
  split <;> omega

theorem pair_carry_iff (hc : c = true ↔ 2 ^ 16 ≤ l.toNat + l'.toNat) :
    2 ^ 16 ≤ h.toNat + h'.toNat + c.toNat ↔ 2 ^ 32 ≤ (h ++ l).toNat + (h' ++ l').toNat := by
  rw [toNat_pair, toNat_pair, toNat_of_iff hc]
  split <;> omega

theorem pair_add_overflow_iff (hc : c = true ↔ 2 ^ 16 ≤ l.toNat + l'.toNat) :
    (h.toInt + h'.toInt + c.toNat < -2 ^ 15 ∨ 2 ^ 15 ≤ h.toInt + h'.toInt + c.toNat) ↔
      (h ++ l).toInt + (h' ++ l').toInt < -2 ^ 31 ∨ 2 ^ 31 ≤ (h ++ l).toInt + (h' ++ l').toInt := by
  rw [toInt_pair, toInt_pair, toNat_of_iff hc]
  split <;> omega

/-- The borrow of the low words is taken from the high ones. -/
theorem pair_sub (hc : c = true ↔ l.toNat < l'.toNat) :
    (h - h' - BitVec.ofNat 16 c.toNat) ++ (l - l') = (h ++ l) - (h' ++ l') := by
  apply BitVec.eq_of_toNat_eq
  simp only [toNat_pair, BitVec.toNat_sub, BitVec.toNat_ofNat, toNat_of_iff hc]
  split <;> omega

theorem pair_borrow_iff (hc : c = true ↔ l.toNat < l'.toNat) :
    h.toNat < h'.toNat + c.toNat ↔ (h ++ l).toNat < (h' ++ l').toNat := by
  rw [toNat_pair, toNat_pair, toNat_of_iff hc]
  split <;> omega

theorem pair_sub_overflow_iff (hc : c = true ↔ l.toNat < l'.toNat) :
    (h.toInt - h'.toInt - c.toNat < -2 ^ 15 ∨ 2 ^ 15 ≤ h.toInt - h'.toInt - c.toNat) ↔
      (h ++ l).toInt - (h' ++ l').toInt < -2 ^ 31 ∨ 2 ^ 31 ≤ (h ++ l).toInt - (h' ++ l').toInt := by
  rw [toInt_pair, toInt_pair, toNat_of_iff hc]
  split <;> omega

end

/-! The flags of a pair -/

/-- The number whose high word is the low word of `h` and whose low word is that of `l`. -/
def lowWords (h l : Ptr) : BitVec 32 := h.extractLsb' 0 16 ++ l.extractLsb' 0 16

theorem low16_getLsbD_iff_lowWords_neg (h l : Ptr) : h.getLsbD 15 = true ↔ (lowWords h l).toInt < 0 :=
  (low16_getLsbD_iff_toInt_neg h).trans (pair_toInt_neg_iff _ _).symm

theorem accumulated_zero_iff_lowWords_eq_zero (h l : Ptr) {z : Bool} (hz : z = true ↔ l.extractLsb' 0 16 = 0) :
    (z && decide (h.extractLsb' 0 16 = 0)) = true ↔ lowWords h l = 0 := by
  rw [Bool.and_eq_true, hz, decide_eq_true_iff, lowWords, pair_eq_zero_iff]

/-- The high words' sum with the low words' carry, and its flags, are those of the pairs. -/
theorem addFlags_lowWords (ah al bh bl : Ptr) :
    let f := addFlags al bl false
    let g := addFlags ah bh f.cf
    let r := lowWords (addResult ah bh f.cf) (addResult al bl false)
    r = lowWords ah al + lowWords bh bl ∧
      (g.cf = true ↔ 2 ^ 32 ≤ (lowWords ah al).toNat + (lowWords bh bl).toNat) ∧
      (g.vf = true ↔ (lowWords ah al).toInt + (lowWords bh bl).toInt < -2 ^ 31 ∨
        2 ^ 31 ≤ (lowWords ah al).toInt + (lowWords bh bl).toInt) ∧
      (g.nf = true ↔ r.toInt < 0) ∧
      ((f.zf && decide ((addResult ah bh f.cf).extractLsb' 0 16 = 0)) = true ↔ r = 0) := by
  intro f g r
  obtain ⟨-, -, -, -, -, -, hcarry, -, hzero⟩ := addFlagsMeanOverflowAndCarry al bl false
  obtain ⟨-, -, -, -, -, hvf, hcf, -, -⟩ := addFlagsMeanOverflowAndCarry ah bh f.cf
  refine ⟨?_, hcf.trans (pair_carry_iff hcarry), hvf.trans (pair_add_overflow_iff hcarry),
    low16_getLsbD_iff_lowWords_neg _ _, accumulated_zero_iff_lowWords_eq_zero _ _ hzero⟩
  calc r = _ ++ (al.extractLsb' 0 16 + bl.extractLsb' 0 16 + 0) :=
        congrArg₂ (· ++ ·) (low16_addResult ah bh f.cf) (low16_addResult al bl false)
    _ = lowWords ah al + lowWords bh bl := by rw [add_zero, pair_add hcarry, lowWords, lowWords]

/-- The high words' difference with the low words' borrow, and its flags, are those of the pairs. -/
theorem subFlags_lowWords (ah al bh bl : Ptr) :
    let f := subFlags al bl false
    let g := subFlags ah bh f.cf
    let r := lowWords (subResult ah bh f.cf) (subResult al bl false)
    r = lowWords ah al - lowWords bh bl ∧
      (g.cf = true ↔ (lowWords ah al).toNat < (lowWords bh bl).toNat) ∧
      (g.vf = true ↔ (lowWords ah al).toInt - (lowWords bh bl).toInt < -2 ^ 31 ∨
        2 ^ 31 ≤ (lowWords ah al).toInt - (lowWords bh bl).toInt) ∧
      (g.nf = true ↔ r.toInt < 0) ∧
      ((f.zf && decide ((subResult ah bh f.cf).extractLsb' 0 16 = 0)) = true ↔ r = 0) := by
  intro f g r
  obtain ⟨-, -, -, -, -, -, hborrow, -, hzero⟩ := subFlagsMeanOverflowAndBorrow al bl false
  obtain ⟨-, -, -, -, -, hvf, hcf, -, -⟩ := subFlagsMeanOverflowAndBorrow ah bh f.cf
  refine ⟨?_, hcf.trans (pair_borrow_iff hborrow), hvf.trans (pair_sub_overflow_iff hborrow),
    low16_getLsbD_iff_lowWords_neg _ _, accumulated_zero_iff_lowWords_eq_zero _ _ hzero⟩
  calc r = _ ++ (al.extractLsb' 0 16 - bl.extractLsb' 0 16 - 0) :=
        congrArg₂ (· ++ ·) (low16_subResult ah bh f.cf) (low16_subResult al bl false)
    _ = lowWords ah al - lowWords bh bl := by rw [sub_zero, pair_sub hborrow, lowWords, lowWords]

/-! Two instructions in a row -/

/-- The second instruction writes another register, from what the first one left. -/
theorem setsD_then_setsD {i j : Instr} {s : State} {l h : DReg} {x y : Ptr} {p q : Word} (hne : h ≠ l)
    (hfirst : SetsD i s l x p)
    (hsecond : ∀ t : State, t.psw = p → (∀ r, r ≠ l → t.d r = s.d r) → SetsD j t h y q) :
    ∃ t u, exec i s = .next t ∧ exec j t = .next u ∧ u.d h = y ∧ u.d l = x ∧ u.psw = q := by
  obtain ⟨t, hexec, hlow, hpsw, -, -, ⟨hkeeps, -⟩, -, -⟩ := hfirst
  obtain ⟨u, hexec', hhigh, hpsw', -, -, ⟨hkeeps', -⟩, -, -⟩ :=
    hsecond t hpsw fun r hr => hkeeps r (by simpa using hr)
  have hlow' : u.d l = t.d l := hkeeps' l (by simpa using hne.symm)
  exact ⟨t, u, hexec, hexec', hhigh, hlow'.trans hlow, hpsw'⟩

theorem add_then_addc {s : State} {nl ml nh mh : DReg} (hn : nh ≠ ml) (hm : mh ≠ ml) :
    let f := addFlags (s.d ml) (s.d nl) false
    let x := addResult (s.d mh) (s.d nh) f.cf
    ∃ t u, exec (.addDnDm nl ml) s = .next t ∧ exec (.addcDnDm nh mh) t = .next u ∧
      u.d mh = x ∧ u.d ml = addResult (s.d ml) (s.d nl) false ∧
      u.psw = pswSetFlags (pswSetFlags s.psw f)
        { addFlags (s.d mh) (s.d nh) f.cf with zf := f.zf && decide (x.extractLsb' 0 16 = 0) } := by
  intro f x
  refine setsD_then_setsD hm (setsD_of_addToD rfl) fun t hpsw hd => ?_
  obtain ⟨-, hcf, -, hzf⟩ := pswSetFlags_wordFlags s.psw f
  obtain ⟨haddc, -, -⟩ := carryFormsAndAddnf t nh mh .a0 0
  rwa [hpsw, hd mh hm, hd nh hn, hcf, hzf] at haddc

theorem sub_then_subc {s : State} {nl ml nh mh : DReg} (hn : nh ≠ ml) (hm : mh ≠ ml) :
    let f := subFlags (s.d ml) (s.d nl) false
    let x := subResult (s.d mh) (s.d nh) f.cf
    ∃ t u, exec (.subDnDm nl ml) s = .next t ∧ exec (.subcDnDm nh mh) t = .next u ∧
      u.d mh = x ∧ u.d ml = subResult (s.d ml) (s.d nl) false ∧
      u.psw = pswSetFlags (pswSetFlags s.psw f)
        { subFlags (s.d mh) (s.d nh) f.cf with zf := f.zf && decide (x.extractLsb' 0 16 = 0) } := by
  intro f x
  refine setsD_then_setsD hm (setsD_of_subFromD rfl) fun t hpsw hd => ?_
  obtain ⟨-, hcf, -, hzf⟩ := pswSetFlags_wordFlags s.psw f
  obtain ⟨-, hsubc, -⟩ := carryFormsAndAddnf t nh mh .a0 0
  rwa [hpsw, hd mh hm, hd nh hn, hcf, hzf] at hsubc

/-- Settles O29: what the two instructions leave is the pairs' sum or difference, and PSW holds the flags of the high
words. -/
theorem twoWordAddAndSubtract : Obligations.TwoWordAddAndSubtract := by
  intro s nl ml nh mh hn hm w
  constructor
  · obtain ⟨t, u, hadd, haddc, hhigh, hlow, hpsw⟩ := add_then_addc (s := s) (nl := nl) hn hm
    obtain ⟨hvf, hcf, hnf, hzf⟩ := pswSetFlags_wordFlags _ _
    have hsum := addFlags_lowWords (s.d mh) (s.d ml) (s.d nh) (s.d nl)
    have hw : w u mh ml = lowWords (u.d mh) (u.d ml) := rfl
    refine ⟨t, u, hadd, haddc, ?_⟩
    rw [hw, hpsw, hhigh, hlow, hvf, hcf, hnf, hzf]
    exact hsum
  · obtain ⟨t, u, hsub, hsubc, hhigh, hlow, hpsw⟩ := sub_then_subc (s := s) (nl := nl) hn hm
    obtain ⟨hvf, hcf, hnf, hzf⟩ := pswSetFlags_wordFlags _ _
    have hdiff := subFlags_lowWords (s.d mh) (s.d ml) (s.d nh) (s.d nl)
    have hw : w u mh ml = lowWords (u.d mh) (u.d ml) := rfl
    refine ⟨t, u, hsub, hsubc, ?_⟩
    rw [hw, hpsw, hhigh, hlow, hvf, hcf, hnf, hzf]
    exact hdiff

end Sys2Proof.Machine
end

section
/-! PROOFS. MUL, MULU and DIVU (R204 to R206). All three, and DIVU whether its quotient fits or not, write one data
register, MDR and the eight flags; some of these values are free. The arithmetic is that of the 32-bit product and of the
quotient of a word above a word. -/

namespace Sys2Proof.Machine

variable {i : Instr} {s : State} {m : DReg}

/-- A result in a data register and in MDR together with all eight flags, after `n` free values. -/
theorem next_of_moveD_setMdr_setFlags {v : Ptr} {x : Word} {f : ResultFlags} {len n : Nat}
    (h : exec i s = moveD m v len (((s.setFlags f).setMdr x).consume n)) :
    ∃ t, exec i s = .next t ∧ t.d m = v ∧ t.mdr = x ∧ t.psw = pswSetFlags s.psw f ∧ t.pc = s.nextPc len ∧
      KeepsRegs s t [m] [] ∧ KeepsMem s t [] ∧ KeepsPlatform s t := by
  refine ⟨_, h, by simp, by simp, by simp, by simp [State.nextPc], ⟨fun r hr => ?_, fun r _ => by simp⟩,
    ⟨fun x _ => by simp, fun _ => by simp⟩, by simp, by simp⟩
  have hne : r ≠ m := by simpa using hr
  simp [hne]

/-! Products -/

/-- What MUL and MULU leave, for the integer `x` that the 32 bits `p` stand for. -/
theorem next_of_finishProduct {p : BitVec 32} {x : Int} {neg : Prop} (h : exec i s = finishProduct p m 2 s)
    (hp : (p.toNat : Int) = x % 2 ^ 32) (hneg : p.msb = true ↔ neg) (hzero : p = 0 ↔ x = 0) :
    ∃ (t : State) (f : ResultFlags), exec i s = .next t ∧ ((t.d m).toNat : Int) = x % 2 ^ 24 ∧
      (t.mdr.toNat : Int) = x / 2 ^ 16 % 2 ^ 16 ∧ t.psw = pswSetFlags s.psw f ∧ f.vf = false ∧
      (f.nf = true ↔ neg) ∧ (f.zf = true ↔ x = 0) ∧ t.pc = s.nextPc 2 ∧ KeepsRegs s t [m] [] ∧
      KeepsMem s t [] ∧ KeepsPlatform s t := by
  obtain ⟨t, hexec, hd, hmdr, hpsw, hframe⟩ := next_of_moveD_setMdr_setFlags h
  refine ⟨t, _, hexec, ?_, ?_, hpsw, rfl, hneg, decide_eq_true_iff.trans hzero, hframe⟩
  · rw [hd, BitVec.extractLsb'_toNat]
    omega
  · rw [hmdr, BitVec.extractLsb'_toNat, Nat.shiftRight_eq_div_pow]
    omega

theorem signedProduct_toInt (a b : Word) : (signedProduct a b).toInt = a.toInt * b.toInt := by
  have hlow : -2 ^ 30 ≤ a.toInt * b.toInt := BitVec.le_toInt_mul_toInt
  have hhigh : a.toInt * b.toInt ≤ 2 ^ 30 := BitVec.toInt_mul_toInt_le
  exact BitVec.toInt_ofInt_eq_self (by decide) (by omega) (by omega)

theorem unsignedProduct_toNat (a b : Word) : (unsignedProduct a b).toNat = a.toNat * b.toNat :=
  Nat.mod_eq_of_lt BitVec.toNat_mul_toNat_lt

/-- Settles O30: both products are below one turn, so the sign and the zero test of the 32 bits are theirs. -/
theorem multiplyForms : Obligations.MultiplyForms := by
  intro s n m product lo
  constructor
  · intro p
    have hexec : exec (.mulDnDm n m) s = finishProduct (signedProduct (lo (s.d m)) (lo (s.d n))) m 2 s := rfl
    have hint : (signedProduct (lo (s.d m)) (lo (s.d n))).toInt = p := signedProduct_toInt _ _
    refine next_of_finishProduct hexec (toNat_ofInt_eq_emod 32 p) ?_ ?_
    · rw [msb_iff_toInt_neg, hint]
    · rw [eq_zero_iff_toInt, hint]
  · intro p
    have hexec : exec (.muluDnDm n m) s = finishProduct (unsignedProduct (lo (s.d m)) (lo (s.d n))) m 2 s := rfl
    have hnat : ((unsignedProduct (lo (s.d m)) (lo (s.d n))).toNat : Int) = p :=
      congrArg Nat.cast (unsignedProduct_toNat _ _)
    have hlt := (unsignedProduct (lo (s.d m)) (lo (s.d n))).isLt
    refine next_of_finishProduct hexec ?_ ?_ ?_
    · omega
    · rw [BitVec.msb_eq_decide, decide_eq_true_iff]
      omega
    · rw [← hnat, eq_zero_iff_toNat, Int.natCast_eq_zero]

/-! Quotients -/

theorem divOverflows_eq_false_iff (dvd : Nat) (dvs : Word) :
    divOverflows dvd dvs = false ↔ dvs.toNat ≠ 0 ∧ dvd / dvs.toNat ≤ 0xFFFF := by
  rw [divOverflows, Bool.or_eq_false_iff, decide_eq_false_iff_not, decide_eq_false_iff_not, eq_zero_iff_toNat, not_lt]

/-- The quotient needs more than 16 bits exactly when the divisor is not above the dividend's upper word (R206, D18). -/
theorem quotient_fits_iff (mdr dvs : Word) (v : Ptr) (h : dvs.toNat ≠ 0) :
    dividend mdr v / dvs.toNat ≤ 0xFFFF ↔ mdr.toNat < dvs.toNat := by
  have hlow := (low16 v).isLt
  rw [← Nat.lt_succ_iff, Nat.div_lt_iff_lt_mul (Nat.pos_of_ne_zero h), dividend]
  omega

/-- Settles O31: a quotient of at most 16 bits and a remainder below the divisor are kept whole. -/
theorem divideThatFits : Obligations.DivideThatFits := by
  intro s n m dvd dvs hdvs hfits
  have hno : divOverflows (dividend s.mdr (s.d m)) (low16 (s.d n)) = false :=
    (divOverflows_eq_false_iff _ _).mpr ⟨hdvs, hfits⟩
  have hexec : exec (.divuDnDm n m) s = divideFits dvd (low16 (s.d n)) m 2 s := if_neg (ne_true_of_eq_false hno)
  obtain ⟨t, hnext, hd, hmdr, hpsw, hframe⟩ := next_of_moveD_setMdr_setFlags hexec
  have hquot : (BitVec.ofNat 16 (dvd / dvs)).toNat = dvd / dvs := Nat.mod_eq_of_lt (Nat.lt_succ_of_le hfits)
  have hrem : (BitVec.ofNat 16 (dvd % dvs)).toNat = dvd % dvs :=
    Nat.mod_eq_of_lt ((Nat.mod_lt _ (Nat.pos_of_ne_zero hdvs)).trans ((s.d n).extractLsb' 0 16).isLt)
  have hzero : decide (BitVec.ofNat 16 (dvd / dvs) = 0) = true ↔ dvd / dvs = 0 := by
    rw [decide_eq_true_iff, eq_zero_iff_toNat, hquot]
  have hsign : (BitVec.ofNat 16 (dvd / dvs)).msb = true ↔ 2 ^ 15 ≤ dvd / dvs := by
    rw [BitVec.msb_eq_decide, decide_eq_true_iff, hquot]
  refine ⟨t, _, hnext, ?_, ?_, hpsw, rfl, rfl, hzero, hzero, hsign, hframe⟩
  · rw [hd]
    exact (BitVec.toNat_setWidth_of_le (by decide)).trans hquot
  · rw [hmdr]
    exact hrem

/-- Settles O32: the overflow case draws every value but VF. -/
theorem divideOverflows : Obligations.DivideOverflows := by
  intro s n m dvs hover
  have hyes : divOverflows (dividend s.mdr (s.d m)) (low16 (s.d n)) = true := by
    by_contra hno
    obtain ⟨hdvs, hfits⟩ := (divOverflows_eq_false_iff _ _).mp (eq_false_of_ne_true hno)
    exact hover.elim hdvs (not_le_of_gt ((quotient_fits_iff _ _ _ hdvs).mp hfits))
  have hexec : exec (.divuDnDm n m) s = divideOverflow m 2 s := if_pos hyes
  obtain ⟨t, hnext, -, -, hpsw, hframe⟩ := next_of_moveD_setMdr_setFlags hexec
  exact ⟨t, _, hnext, hpsw, rfl, hframe⟩

end Sys2Proof.Machine
end

section
/-! PROOFS. AND, OR, XOR, NOT, shifts and rotates (R230 to R245). Each form on a data register is `Logic16` with its own
word, carry and length, and each form on the PSW is one write of what was read; both shapes get their statement once. For
the shifts it remains to say the word and the carry as numbers. -/

namespace Sys2Proof.Machine

variable {i : Instr} {s : State}

/-! The shapes of meaning -/

/-- A low word in a data register, bits 23..16 kept, together with the four low flags. -/
theorem setsD_of_logic16 {r : DReg} {w : Word} {cf : Bool} (h : exec i s = logic16 r w cf i.length s) :
    SetsD i s r ((s.d r).extractLsb' 16 8 ++ w) (pswSetLowFlags s.psw false cf (w.getLsbD 15) (decide (w = 0))) :=
  setsD_of (sameFrame_setLowFlags s false cf (w.getLsbD 15) (decide (w = 0))) h rfl rfl rfl

theorem sameFrame_setPsw_consume (s : State) (w : Word) (n : Nat) : SameFrame s ((s.setPsw w).consume n) :=
  ⟨by simp, by simp, rfl, rfl, rfl, rfl, rfl⟩

/-- The PSW becomes `f` of the value read, whose bits 15 and 14 are the two free bits drawn (R23). -/
theorem setsPswMdr_of_updatePsw {f : Word → Word} (h : exec i s = updatePsw f i.length s) :
    ∃ b15 b14 : Bool, SetsPswMdr i s (f (BitVec.ofBool b15 ++ BitVec.ofBool b14 ++ s.psw.extractLsb' 0 14)) s.mdr :=
  ⟨s.freeBit 1, s.freeBit 0, setsPswMdr_of (sameFrame_setPsw_consume s (f s.pswRead) 2) h rfl rfl rfl⟩

/-! One place left or right as a number, at any width -/

theorem sshiftRight_one_eq_ofInt {w : Nat} (x : BitVec w) : x.sshiftRight 1 = BitVec.ofInt w (x.toInt / 2) := by
  rw [BitVec.sshiftRight_eq, Int.shiftRight_eq_div_pow]
  rfl

theorem ushiftRight_one_eq_ofNat {w : Nat} (x : BitVec w) : x >>> 1 = BitVec.ofNat w (x.toNat / 2) := by
  rw [← Nat.shiftRight_one, ← BitVec.toNat_ushiftRight, BitVec.ofNat_toNat, BitVec.setWidth_eq]

/-- A bit put in above the upper bits counts as the highest one. -/
theorem toNat_ofBool_append_extract {w : Nat} (c : Bool) (x : BitVec (w + 1)) :
    (BitVec.ofBool c ++ x.extractLsb' 1 w).toNat = c.toNat * 2 ^ w + x.toNat / 2 := by
  have hhalf : x.toNat / 2 < 2 ^ w := by have := x.isLt; omega
  rw [BitVec.toNat_append, BitVec.toNat_ofBool, BitVec.extractLsb'_toNat, Nat.shiftRight_one, Nat.mod_eq_of_lt hhalf,
    ← Nat.shiftLeft_add_eq_or_of_lt hhalf, Nat.shiftLeft_eq]

/-- A bit put in below the lower bits counts as the lowest one; the highest bit falls out. -/
theorem extract_append_ofBool_eq_ofNat {w : Nat} (c : Bool) (x : BitVec (w + 1)) :
    x.extractLsb' 0 w ++ BitVec.ofBool c = BitVec.ofNat (w + 1) (x.toNat * 2 + c.toNat) := by
  have hc : c.toNat < 2 ^ 1 := c.toNat_lt
  have hbit : (x.toNat * 2 + c.toNat) % 2 = c.toNat := by omega
  have hrest : (x.toNat * 2 + c.toNat) / 2 = x.toNat := by omega
  apply BitVec.eq_of_toNat_eq
  rw [BitVec.toNat_append, BitVec.toNat_ofBool, BitVec.extractLsb'_toNat, Nat.shiftRight_zero, BitVec.toNat_ofNat,
    ← Nat.shiftLeft_add_eq_or_of_lt hc, Nat.shiftLeft_eq, Nat.pow_succ' (n := w), Nat.mod_mul, hbit, hrest]
  ring

/-! The bit shifted out -/

theorem low16_bit0 (v : Ptr) : v.getLsbD 0 = decide ((low16 v).toNat % 2 = 1) := by
  have hmod : (low16 v).toNat % 2 = v.toNat % 2 := by
    rw [low16, BitVec.extractLsb'_toNat, Nat.shiftRight_zero, Nat.mod_mod_of_dvd _ (by decide)]
  rw [hmod, BitVec.getLsbD, Nat.testBit_zero]

theorem low16_bit15 (v : Ptr) : v.getLsbD 15 = decide (2 ^ 15 ≤ (low16 v).toNat) := by
  rw [← msb_low16, BitVec.msb_eq_decide]
  rfl

/-! The four shifts as numbers -/

theorem exec_asrDn (n : DReg) (s : State) : exec (.asrDn n) s =
    logic16 n (BitVec.ofInt 16 ((low16 (s.d n)).toInt / 2)) (decide ((low16 (s.d n)).toNat % 2 = 1)) 2 s := by
  rw [← sshiftRight_one_eq_ofInt, ← low16_bit0]
  rfl

theorem exec_lsrDn (n : DReg) (s : State) : exec (.lsrDn n) s =
    logic16 n (BitVec.ofNat 16 ((low16 (s.d n)).toNat / 2)) (decide ((low16 (s.d n)).toNat % 2 = 1)) 2 s := by
  rw [← ushiftRight_one_eq_ofNat, ← low16_bit0]
  rfl

theorem exec_rorDn (n : DReg) (s : State) : exec (.rorDn n) s =
    logic16 n (BitVec.ofNat 16 ((pswCF s.psw).toNat * 2 ^ 15 + (low16 (s.d n)).toNat / 2))
      (decide ((low16 (s.d n)).toNat % 2 = 1)) 2 s := by
  rw [← toNat_ofBool_append_extract, BitVec.ofNat_toNat, ← low16_bit0]
  rfl

theorem exec_rolDn (n : DReg) (s : State) : exec (.rolDn n) s =
    logic16 n (BitVec.ofNat 16 ((low16 (s.d n)).toNat * 2 + (pswCF s.psw).toNat))
      (decide (2 ^ 15 ≤ (low16 (s.d n)).toNat)) 2 s := by
  rw [← extract_append_ofBool_eq_ofNat, ← low16_bit15]
  rfl

/-- The complement is the XOR with all ones (R241). -/
theorem exec_notDn (n : DReg) (s : State) : exec (.notDn n) s = logic16 n (~~~low16 (s.d n)) false 2 s := by
  rw [← BitVec.xor_allOnes]
  rfl

/-! The statements -/

/-- Settles O33: every form is `Logic16` with carry 0, of a register or of an immediate as its rule widens it. -/
theorem logicForms : Obligations.LogicForms := fun s n _ _ _ =>
  ⟨setsD_of_logic16 rfl, setsD_of_logic16 rfl, setsD_of_logic16 rfl, setsD_of_logic16 rfl, setsD_of_logic16 rfl,
    setsD_of_logic16 rfl, setsD_of_logic16 rfl, setsD_of_logic16 rfl, setsD_of_logic16 (exec_notDn n s)⟩

/-- Settles O34: every form is `Logic16` with the shifted word and the bit shifted out, as numbers. -/
theorem shiftForms : Obligations.ShiftForms := fun s n =>
  ⟨setsD_of_logic16 (exec_asrDn n s), setsD_of_logic16 (exec_lsrDn n s), setsD_of_logic16 (exec_rorDn n s),
    setsD_of_logic16 (exec_rolDn n s)⟩

/-- Settles O35: each form writes what its operation makes of the value read. -/
theorem pswAndOrImmediates : Obligations.PswAndOrImmediates := fun _ imm =>
  ⟨setsPswMdr_of_updatePsw (f := (· &&& imm)) rfl, setsPswMdr_of_updatePsw (f := (· ||| imm)) rfl⟩

end Sys2Proof.Machine
end

section
/-! PROOFS. BTST, BSET and BCLR (R260 to R263). BTST tests a masked low word, which in the imm8 form is a byte with zeros
above it. BSET and BCLR are one shape: a byte load, then a byte store at the same address; the load draws at most free
values (R41), so what the store leaves is what it would leave without the load. -/

namespace Sys2Proof.Machine

variable {i : Instr} {s : State} {ea : Ptr}

/-! The masked low word -/

/-- The upper byte of a zero-extended mask lets nothing through (R260). -/
theorem low16_and_zextByte (v : Ptr) (b : Byte) : low16 (v &&& zextByte b) = zextByte16 (low8 v &&& b) := by
  apply BitVec.eq_of_getLsbD_eq
  intro k hk
  by_cases hbyte : k < 8
  · simp [low16, zextByte, zextByte16, low8, hk, hbyte, Nat.lt_trans hk]
  · simp [low16, zextByte, zextByte16, low8, hbyte, BitVec.getLsbD_of_ge b k (Nat.not_lt.1 hbyte)]

theorem low16_zextWord (w : Word) : low16 (zextWord w) = w :=
  (BitVec.extractLsb'_setWidth_of_le (by decide)).trans BitVec.extractLsb'_eq_self

theorem low16_and_zextWord (v : Ptr) (w : Word) : low16 (v &&& zextWord w) = low16 v &&& w :=
  BitVec.extractLsb'_and.trans (congrArg (low16 v &&& ·) (low16_zextWord w))

theorem low16_and_bit15 (v : Ptr) (w : Word) : (low16 v &&& w).getLsbD 15 = (v.getLsbD 15 && w.getLsbD 15) := by
  rw [BitVec.getLsbD_and, low16, BitVec.getLsbD_extractLsb']
  rfl

theorem zextByte16_bit15 (b : Byte) : (zextByte16 b).getLsbD 15 = false := by
  simp [zextByte16]

theorem zextByte16_eq_zero_iff (b : Byte) : zextByte16 b = 0 ↔ b = 0 := by
  rw [eq_zero_iff_toNat, eq_zero_iff_toNat, zextByte16, BitVec.toNat_setWidth_of_le (by decide)]

/-! The shapes of meaning -/

theorem setsPswMdr_of_testBits {w : Word} (h : exec i s = testBits w i.length s) :
    SetsPswMdr i s (pswSetLowFlags s.psw false false (w.getLsbD 15) (decide (w = 0))) s.mdr :=
  setsPswMdr_of (sameFrame_setLowFlags s false false (w.getLsbD 15) (decide (w = 0))) h rfl rfl rfl

/-- A byte with zeros above it is zero as the byte is, and its bit 15 is 0. -/
theorem setsPswMdr_of_testByte {b : Byte} (h : exec i s = testBits (zextByte16 b) i.length s) :
    SetsPswMdr i s (pswSetLowFlags s.psw false false false (decide (b = 0))) s.mdr := by
  have htest := setsPswMdr_of_testBits h
  simpa only [zextByte16_bit15, zextByte16_eq_zero_iff] using htest

/-- Where the store may be made so may the load, whose draws change nothing about the store. -/
theorem modifyByte_eq (f : Byte → Byte) (mask : Byte) (len : Nat) (hstore : Storable s ea 1) :
    modifyByte f mask ea len s =
      .next ((((s.afterRead ea 1).pokeBytes ea [f (s.peek8 ea)]).setLowFlags false false false
        (decide (s.peek8 ea &&& mask = 0))).advance len) := by
  have hstoreAfter : Storable (s.afterRead ea 1) ea (le8 (f (s.peek8 ea))).length :=
    (storable_congr (afterRead_platform s ea 1) ea 1).2 hstore
  rw [modifyByte, load8_eq hstore.1, store_eq hstoreAfter]
  rfl

theorem storesAt_of_modifyByte {f : Byte → Byte} {mask : Byte} (h : exec i s = modifyByte f mask ea i.length s)
    (hs : s.Inv) (hstore : Storable s ea 1) :
    StoresAt i s ea [f (s.peek8 ea)]
      (pswSetLowFlags s.psw false false false (decide (s.peek8 ea &&& mask = 0))) := by
  have hholds := pokeBytes_holds (inv_afterRead hs ea 1) ea [f (s.peek8 ea)] (by simp)
  obtain ⟨hbytes, hout⟩ := pokeBytes_keepsMem (s.afterRead ea 1) ea [f (s.peek8 ea)]
  refine ⟨_, h.trans (modifyByte_eq f mask i.length hstore), fun j hj hram => ?_, by simp, by simp,
    by simp [State.nextPc], ⟨fun q _ => by simp, fun q _ => by simp⟩, ⟨fun x hx => ?_, fun hx => ?_⟩, by simp, by simp⟩
  · simpa using hholds j hj (by simpa using hram)
  · simpa using hbytes x hx
  · simpa using hout (by simpa using hx)

/-! The two forms of BTST -/

theorem exec_btstImm8Dn (b : Byte) (n : DReg) (s : State) :
    exec (.btstImm8Dn b n) s = testBits (zextByte16 (low8 (s.d n) &&& b)) 3 s :=
  congrArg (testBits · 3 s) (low16_and_zextByte (s.d n) b)

theorem exec_btstImm16Dn (w : Word) (n : DReg) (s : State) :
    exec (.btstImm16Dn w n) s = testBits (low16 (s.d n) &&& w) 4 s :=
  congrArg (testBits · 4 s) (low16_and_zextWord (s.d n) w)

/-! The statements -/

/-- Settles O36: the imm8 form tests a byte, the imm16 form a word whose bit 15 is that of both operands. -/
theorem btstForms : Obligations.BtstForms := by
  intro s n imm8 imm16
  have hword := setsPswMdr_of_testBits (exec_btstImm16Dn imm16 n s)
  rw [low16_and_bit15] at hword
  exact ⟨setsPswMdr_of_testByte (exec_btstImm8Dn imm8 n s), hword⟩

/-- Settles O37: each form modifies the byte at An, by OR with the mask or by AND with its complement. -/
theorem bitSetAndClear : Obligations.BitSetAndClear := by
  intro s m n hs hstore mask old psw
  exact ⟨storesAt_of_modifyByte (f := (· ||| mask)) rfl hs hstore,
    storesAt_of_modifyByte (f := (· &&& ~~~mask)) rfl hs hstore⟩

end Sys2Proof.Machine
end

section
/-! PROOFS. Branches and jumps (R270 to R304, R309). A conditional branch is one shape, a condition with a displacement and
a length. What its condition says after CMP is an argument about any two words of any width: sign and overflow together give
the signed order, the borrow gives the unsigned one; the 16-bit and the extended flags are two cases of it. -/

namespace Sys2Proof.Machine

variable {i : Instr} {s t : State} {len : Nat}

/-! Relative targets -/

theorem nextPc_eq_relTarget (s : State) (len : Nat) : s.nextPc len = relTarget s len 0 := by
  simp [State.nextPc, relTarget, BitVec.ofInt_add]

/-- A displacement counts as a signed number (R271). -/
theorem nextPc_add_signExtend {w : Nat} (s : State) (len : Nat) (d : BitVec w) :
    s.nextPc len + d.signExtend 24 = relTarget s len d.toInt := by
  simp [State.nextPc, relTarget, BitVec.ofInt_add, BitVec.signExtend]

theorem nextPc_add (s : State) (len : Nat) (d : Ptr) : s.nextPc len + d = relTarget s len d.toInt := by
  rw [← nextPc_add_signExtend, BitVec.signExtend_eq]

/-! The shapes of meaning -/

theorem jumpsTo_relTarget {target : Ptr} {disp : Int} (h : exec i s = .next (s.jump target))
    (htarget : target = relTarget s len disp) : JumpsTo i s (relTarget s len disp) :=
  htarget ▸ jumpsTo_of h

/-- A branch goes to its target if its condition holds, to the next instruction otherwise; the condition may be said in
other words. -/
theorem jumpsTo_of_branchIf {taken taken' : Bool} {d : Byte} (h : exec i s = branchIf taken (sextByte d) len s)
    (htaken : taken = taken') : JumpsTo i s (if taken' then relTarget s len d.toInt else relTarget s len 0) := by
  subst htaken
  cases taken with
  | true => exact jumpsTo_relTarget h (nextPc_add_signExtend s len d)
  | false => exact nextPc_eq_relTarget s len ▸ jumpsTo_of_advance h

/-- Settles O39: each form is one jump, or one advance, to the target its rule names. -/
theorem jumpsAndNop : Obligations.JumpsAndNop := fun s _ d16 d24 _ =>
  ⟨jumpsTo_of_branchIf (taken' := true) rfl rfl, jumpsTo_relTarget rfl (nextPc_add_signExtend s 3 d16),
    jumpsTo_relTarget rfl (nextPc_add s 5 d24), jumpsTo_of rfl,
    nextPc_eq_relTarget s 1 ▸ jumpsTo_of_advance rfl⟩

/-! The conditions in the words of the statements (R270) -/

theorem holds_ge (v c n z : Bool) : Cond.ge.holds v c n z = (v == n) := Bool.not_not (v == n)

theorem holds_gt (v c n z : Bool) : Cond.gt.holds v c n z = (v == n && !z) :=
  (Bool.not_or (v ^^ n) z).trans (congrArg (· && !z) (holds_ge v c n z))

theorem holds_hi (v c n z : Bool) : Cond.hi.holds v c n z = (!c && !z) := Bool.not_or c z

theorem wordBranchesFollowFlags : WordBranchesFollowFlags := fun _ _ =>
  ⟨jumpsTo_of_branchIf rfl rfl, jumpsTo_of_branchIf rfl rfl, jumpsTo_of_branchIf rfl rfl, jumpsTo_of_branchIf rfl rfl,
    jumpsTo_of_branchIf rfl (holds_ge _ _ _ _), jumpsTo_of_branchIf rfl (holds_gt _ _ _ _), jumpsTo_of_branchIf rfl rfl,
    jumpsTo_of_branchIf rfl rfl, jumpsTo_of_branchIf rfl rfl, jumpsTo_of_branchIf rfl (holds_hi _ _ _ _),
    jumpsTo_of_branchIf rfl rfl, jumpsTo_of_branchIf rfl rfl, jumpsTo_of_branchIf rfl rfl, jumpsTo_of_branchIf rfl rfl⟩

theorem extendedBranchesFollowFlags : ExtendedBranchesFollowFlags := fun _ _ =>
  ⟨jumpsTo_of_branchIf rfl rfl, jumpsTo_of_branchIf rfl rfl, jumpsTo_of_branchIf rfl rfl, jumpsTo_of_branchIf rfl rfl,
    jumpsTo_of_branchIf rfl (holds_ge _ _ _ _), jumpsTo_of_branchIf rfl (holds_gt _ _ _ _), jumpsTo_of_branchIf rfl rfl,
    jumpsTo_of_branchIf rfl rfl, jumpsTo_of_branchIf rfl rfl, jumpsTo_of_branchIf rfl (holds_hi _ _ _ _),
    jumpsTo_of_branchIf rfl rfl, jumpsTo_of_branchIf rfl rfl, jumpsTo_of_branchIf rfl rfl, jumpsTo_of_branchIf rfl rfl⟩

/-! Flags that compare two words, at any width -/

/-- The flags V, C, N, Z tell how the two words compare: Z whether they are equal, V and N together the signed order, C the
unsigned one. -/
structure FlagsCompare {w : Nat} (v c n z : Bool) (src dest : BitVec w) : Prop where
  eq : z = true ↔ src = dest
  lt : (v != n) = true ↔ src.toInt > dest.toInt
  cs : c = true ↔ src.toNat > dest.toNat

namespace FlagsCompare

variable {w : Nat} {v c n z : Bool} {src dest : BitVec w}

theorem ne (h : FlagsCompare v c n z src dest) : (!z) = true ↔ src ≠ dest := by
  rw [Bool.not_eq_true', ← Bool.not_eq_true, h.eq]

theorem le (h : FlagsCompare v c n z src dest) : (v != n || z) = true ↔ src.toInt ≥ dest.toInt := by
  rw [Bool.or_eq_true, h.lt, h.eq, ← BitVec.toInt_inj]
  omega

theorem ge (h : FlagsCompare v c n z src dest) : (v == n) = true ↔ src.toInt ≤ dest.toInt := by
  rw [← not_lt, ← gt_iff_lt, ← h.lt]
  simp

theorem gt (h : FlagsCompare v c n z src dest) : (v == n && !z) = true ↔ src.toInt < dest.toInt := by
  rw [Bool.and_eq_true, h.ge, h.ne, ne_eq, ← BitVec.toInt_inj]
  omega

theorem ls (h : FlagsCompare v c n z src dest) : (c || z) = true ↔ src.toNat ≥ dest.toNat := by
  rw [Bool.or_eq_true, h.cs, h.eq, BitVec.toNat_eq]
  omega

theorem cc (h : FlagsCompare v c n z src dest) : (!c) = true ↔ src.toNat ≤ dest.toNat := by
  rw [Bool.not_eq_true', ← Bool.not_eq_true, h.cs, not_lt]

theorem hi (h : FlagsCompare v c n z src dest) : (!c && !z) = true ↔ src.toNat < dest.toNat := by
  rw [Bool.and_eq_true, h.cc, h.ne, ne_eq, BitVec.toNat_eq]
  omega

/-- Where the difference overflows, its sign is the wrong one. -/
theorem of_difference {w : Nat} {src dest : BitVec (w + 1)}
    (hv : v = true ↔ dest.toInt - src.toInt < -2 ^ w ∨ 2 ^ w ≤ dest.toInt - src.toInt)
    (hc : c = true ↔ dest.toNat < src.toNat) (hn : n = true ↔ (dest - src).toInt < 0)
    (hz : z = true ↔ dest - src = 0) : FlagsCompare v c n z src dest where
  eq := by rw [hz, sub_eq_zero, eq_comm]
  lt := by
    have hdest := toInt_bounds dest
    have hsrc := toInt_bounds src
    have hdifference : (dest - src).toInt = (dest.toInt - src.toInt).bmod (2 * 2 ^ w) := by
      rw [BitVec.toInt_sub, Nat.pow_succ']
    rw [bmod_of_lt_one_turn (by omega) (by omega)] at hdifference
    rw [bne_iff_ne, ne_eq, Bool.eq_iff_iff, hv, hn, hdifference]
    push_cast at hdest hsrc ⊢
    split_ifs <;> omega
  cs := hc

end FlagsCompare

/-! The flags that CMP leaves -/

theorem flagsCompare_extended (dest src : Ptr) :
    let f := subFlags dest src false
    FlagsCompare f.vx f.cx f.nx f.zx src dest := by
  obtain ⟨-, hvx, hcx, hnx, hzx, -⟩ := subFlagsMeanOverflowAndBorrow dest src false
  have hresult : subResult dest src false = dest - src := (subResult_eq dest src false).trans (sub_zero _)
  rw [hresult] at hnx hzx
  exact .of_difference (by simpa using hvx) hcx hnx hzx

theorem flagsCompare_word (dest src : Ptr) :
    let f := subFlags dest src false
    FlagsCompare f.vf f.cf f.nf f.zf (src.extractLsb' 0 16) (dest.extractLsb' 0 16) := by
  obtain ⟨-, -, -, -, -, hvf, hcf, hnf, hzf⟩ := subFlagsMeanOverflowAndBorrow dest src false
  have hresult := (low16_subResult dest src false).trans (sub_zero _)
  simp only [hresult] at hnf hzf
  exact .of_difference (by simpa using hvf) hcf hnf hzf

theorem exec_of_cmpOperands {src dest : Ptr} (h : cmpOperands s i = some (src, dest)) :
    exec i s = compare dest src i.length s := by
  cases i
  case cmpDnDm | cmpDmAn | cmpAnDm | cmpAnAm | cmpImm8Dn | cmpImm16Dn | cmpImm24Dn | cmpImm16An | cmpImm24An =>
    cases h
    rfl
  all_goals cases h

/-- Every form of CMP completes, and each of the two groups of flags it leaves compares its operands. -/
theorem exec_cmp_flagsCompare {src dest : Ptr} (h : cmpOperands s i = some (src, dest)) :
    ∃ t, exec i s = .next t ∧
      FlagsCompare (t.psw.getLsbD 3) (t.psw.getLsbD 2) (t.psw.getLsbD 1) (t.psw.getLsbD 0)
        (src.extractLsb' 0 16) (dest.extractLsb' 0 16) ∧
      FlagsCompare (t.psw.getLsbD 7) (t.psw.getLsbD 6) (t.psw.getLsbD 5) (t.psw.getLsbD 4) src dest := by
  obtain ⟨t, hnext, hpsw, -⟩ := setsPswMdr_of_compare (exec_of_cmpOperands h)
  obtain ⟨hvf, hcf, hnf, hzf⟩ := pswSetFlags_wordFlags s.psw (subFlags dest src false)
  obtain ⟨hvx, hcx, hnx, hzx⟩ := pswSetFlags_extendedFlags s.psw (subFlags dest src false)
  refine ⟨t, hnext, ?_, ?_⟩
  · rw [hpsw, hvf, hcf, hnf, hzf]
    exact flagsCompare_word dest src
  · rw [hpsw, hvx, hcx, hnx, hzx]
    exact flagsCompare_extended dest src

/-! The branches after CMP -/

theorem branchesCompare_of_jumpsTo {d : Byte} {taken : Bool} {cmp : Prop}
    (h : JumpsTo i t (if taken then relTarget t len d.toInt else relTarget t len 0)) (htaken : taken = true ↔ cmp) :
    BranchesCompare t d i len cmp := by
  refine ⟨fun hcmp => ?_, fun hcmp => ?_⟩
  · rwa [if_pos (htaken.mpr hcmp)] at h
  · rwa [if_neg (mt htaken.mp hcmp)] at h

theorem branchesAfterCompare : BranchesAfterCompare := by
  intro s i src dest d h
  obtain ⟨t, hnext, hword, hext⟩ := exec_cmp_flagsCompare h
  obtain ⟨beq, bne, blt, ble, bge, bgt, bcs, bls, bcc, bhi, -⟩ := wordBranchesFollowFlags t d
  obtain ⟨beqx, bnex, bltx, blex, bgex, bgtx, bcsx, blsx, bccx, bhix, -⟩ := extendedBranchesFollowFlags t d
  refine ⟨t, hnext, ?_, ?_⟩
  · exact ⟨branchesCompare_of_jumpsTo beq hword.eq, branchesCompare_of_jumpsTo bne hword.ne,
      branchesCompare_of_jumpsTo blt hword.lt, branchesCompare_of_jumpsTo ble hword.le,
      branchesCompare_of_jumpsTo bge hword.ge, branchesCompare_of_jumpsTo bgt hword.gt,
      branchesCompare_of_jumpsTo bcs hword.cs, branchesCompare_of_jumpsTo bls hword.ls,
      branchesCompare_of_jumpsTo bcc hword.cc, branchesCompare_of_jumpsTo bhi hword.hi⟩
  · exact ⟨branchesCompare_of_jumpsTo beqx hext.eq, branchesCompare_of_jumpsTo bnex hext.ne,
      branchesCompare_of_jumpsTo bltx hext.lt, branchesCompare_of_jumpsTo blex hext.le,
      branchesCompare_of_jumpsTo bgex hext.ge, branchesCompare_of_jumpsTo bgtx hext.gt,
      branchesCompare_of_jumpsTo bcsx hext.cs, branchesCompare_of_jumpsTo blsx hext.ls,
      branchesCompare_of_jumpsTo bccx hext.cc, branchesCompare_of_jumpsTo bhix hext.hi⟩

/-- Settles O38. -/
theorem branchConditionTable : Obligations.BranchConditionTable :=
  ⟨wordBranchesFollowFlags, extendedBranchesFollowFlags, branchesAfterCompare⟩

end Sys2Proof.Machine
end

section
/-! PROOFS. Calls and returns (R305 to R308, R310, R312) and interrupt entry with its return (R336, R337). A push and the
pop that follows it meet in the bytes at the new A3: bytes stored to RAM are what a read gives. What a round trip leaves is
what the push keeps and what the pop keeps, one after the other. -/

namespace Sys2Proof.Machine

variable {i : Instr} {s t u : State} {ea : Ptr} {xs ys : List Byte}

/-! Frames in a row -/

theorem KeepsRegs.trans {ds : List DReg} {as : List AReg} (h : KeepsRegs s t ds as) (h' : KeepsRegs t u ds as) :
    KeepsRegs s u ds as :=
  ⟨fun r hr => (h'.1 r hr).trans (h.1 r hr), fun r hr => (h'.2 r hr).trans (h.2 r hr)⟩

/-- A3 as before completes a frame that leaves out A3 only. -/
theorem KeepsRegs.of_a3 (h : KeepsRegs s t [] [.a3]) (ha3 : t.a3 = s.a3) : KeepsRegs s t [] [] := by
  obtain ⟨hd, ha⟩ := h
  refine ⟨hd, fun r _ => ?_⟩
  by_cases hr : r = .a3
  · subst hr
    exact ha3
  · exact ha r (by simpa using hr)

/-- Memory that is kept whole after a store keeps what the store kept. -/
theorem KeepsMem.trans_kept {addrs : List Nat} (h : KeepsMem s t addrs) (h' : KeepsMem t u []) : KeepsMem s u addrs :=
  ⟨fun x hx => (h'.1 x List.not_mem_nil).trans (h.1 x hx), fun hx => (h'.2 nofun).trans (h.2 hx)⟩

/-! Runs of bytes -/

theorem bytesFrom_append (ea : Ptr) (m n : Nat) :
    bytesFrom ea (m + n) = bytesFrom ea m ++ bytesFrom (ea + BitVec.ofNat 24 m) n := by
  simp [bytesFrom, List.range_add, BitVec.add_assoc]

theorem allRam_append {m n : Nat} :
    AllRam s ea (m + n) ↔ AllRam s ea m ∧ AllRam s (ea + BitVec.ofNat 24 m) n := by
  rw [AllRam, bytesFrom_append, List.forall_mem_append]
  rfl

theorem HoldsBytes.append_left (h : HoldsBytes s t ea (xs ++ ys)) : HoldsBytes s t ea xs := by
  intro j hj hram
  rw [h j (by rw [List.length_append]; omega) hram, List.getElem_append_left]

theorem HoldsBytes.append_right (h : HoldsBytes s t ea (xs ++ ys)) :
    HoldsBytes s t (ea + BitVec.ofNat 24 xs.length) ys := by
  intro j hj hram
  have haddr : ea + BitVec.ofNat 24 xs.length + BitVec.ofNat 24 j = ea + BitVec.ofNat 24 (xs.length + j) := by
    rw [BitVec.add_assoc, BitVec.ofNat_add]
  rw [haddr] at hram ⊢
  rw [h (xs.length + j) (by rw [List.length_append]; omega) hram]
  simp

/-! Reads of stored bytes -/

@[simp] theorem length_le16 (w : Word) : (le16 w).length = 2 := rfl

@[simp] theorem length_le24 (v : Ptr) : (le24 v).length = 3 := rfl

theorem append_le24 (v : Ptr) : v.extractLsb' 16 8 ++ v.extractLsb' 8 8 ++ v.extractLsb' 0 8 = v := by
  rw [BitVec.extractLsb'_append_extractLsb'_eq_extractLsb' (by decide),
    BitVec.extractLsb'_append_extractLsb'_eq_extractLsb' (by decide)]
  exact BitVec.extractLsb'_eq_self

/-- A byte stored to RAM is what a read gives, whichever byte of a read it is. -/
theorem readByte_of_holdsBytes (h : HoldsBytes s t ea xs) (hram : AllRam s ea xs.length)
    (hplatform : t.platform = s.platform) (k : Nat) {j : Nat} (hj : j < xs.length) :
    t.readByte k (ea + BitVec.ofNat 24 j).toNat = xs[j] := by
  have hkind : s.kindAt (ea + BitVec.ofNat 24 j).toNat = .ram :=
    hram _ (List.mem_map_of_mem (List.mem_range.2 hj))
  have hmemory : t.kindAt (ea + BitVec.ofNat 24 j).toNat ≠ .device := by
    rw [State.kindAt, hplatform]
    exact ne_of_eq_of_ne hkind (by decide)
  rw [readByte_of_not_device hmemory, h j hj hkind]

theorem peek16_of_holdsBytes {w : Word} (h : HoldsBytes s t ea (le16 w)) (hram : AllRam s ea 2)
    (hplatform : t.platform = s.platform) : t.peek16 ea = w := by
  have h0 := readByte_of_holdsBytes h hram hplatform 0 (j := 0) (by simp)
  have h1 := readByte_of_holdsBytes h hram hplatform 1 (j := 1) (by simp)
  rw [BitVec.add_zero] at h0
  calc t.peek16 ea = w.extractLsb' 8 8 ++ w.extractLsb' 0 8 := congrArg₂ (· ++ ·) h1 h0
    _ = w := BitVec.extractLsb'_append_extractLsb' (w := 8)

theorem peek24_of_holdsBytes {v : Ptr} (h : HoldsBytes s t ea (le24 v)) (hram : AllRam s ea 3)
    (hplatform : t.platform = s.platform) : t.peek24 ea = v := by
  have h0 := readByte_of_holdsBytes h hram hplatform 0 (j := 0) (by simp)
  have h1 := readByte_of_holdsBytes h hram hplatform 1 (j := 1) (by simp)
  have h2 := readByte_of_holdsBytes h hram hplatform 2 (j := 2) (by simp)
  rw [BitVec.add_zero] at h0
  calc t.peek24 ea = v.extractLsb' 16 8 ++ v.extractLsb' 8 8 ++ v.extractLsb' 0 8 :=
        congrArg₂ (· ++ ·) (congrArg₂ (· ++ ·) h2 h1) h0
    _ = v := append_le24 v

/-! Calls -/

theorem callSubroutine_eq {target : Ptr} {len : Nat} (h : Storable s (s.a3 - 4) 3) :
    callSubroutine target len s =
      .next (((s.pokeBytes (s.a3 - 4) (le24 (s.nextPc len))).setA .a3 (s.a3 - 4)).jump target) :=
  store_eq (bs := le24 (s.nextPc len)) h _

theorem callsTo_of_callSubroutine {target : Ptr} (h : exec i s = callSubroutine target i.length s) (hs : s.Inv)
    (hstore : Storable s (s.a3 - 4) 3) : CallsTo i s target := by
  have hholds := pokeBytes_holds hs (s.a3 - 4) (le24 (s.nextPc i.length)) (by simp)
  obtain ⟨hbytes, hout⟩ := pokeBytes_keepsMem s (s.a3 - 4) (le24 (s.nextPc i.length))
  refine ⟨_, h.trans (callSubroutine_eq hstore), by simp, fun j hj hram => ?_, by simp, by simp, by simp,
    ⟨fun r _ => by simp, fun r hr => ?_⟩, ⟨fun x hx => ?_, fun hx => ?_⟩, by simp, by simp⟩
  · simpa using hholds j hj hram
  · have hne : r ≠ .a3 := by simpa using hr
    simp [hne]
  · simpa using hbytes x hx
  · simpa using hout hx

/-- The target of JSR (An), read after A3 is lowered (R307, D27). -/
theorem setA_a3_a (s : State) (v : Ptr) (n : AReg) : (s.setA .a3 v).a n = if n = .a3 then v else s.a n := by
  split
  · next h => rw [h, State.setA_a_same]
  · next h => exact State.setA_a_ne s .a3 n v h

/-- Settles O40. -/
theorem callsPushReturnAddress : Obligations.CallsPushReturnAddress := by
  intro s d16 d24 n hs hstore
  rw [← nextPc_add_signExtend, ← nextPc_add, ← setA_a3_a]
  exact ⟨callsTo_of_callSubroutine rfl hs hstore, callsTo_of_callSubroutine rfl hs hstore,
    callsTo_of_callSubroutine rfl hs hstore⟩

/-- The three forms of JSR are one call, each to its own target. -/
theorem exec_call (h : (∃ d, i = .jsrLabel16 d) ∨ (∃ d, i = .jsrLabel24 d) ∨ (∃ n, i = .jsrInd n)) (s : State) :
    ∃ target, exec i s = callSubroutine target i.length s := by
  rcases h with ⟨d, rfl⟩ | ⟨d, rfl⟩ | ⟨n, rfl⟩
  · exact ⟨_, rfl⟩
  · exact ⟨_, rfl⟩
  · exact ⟨_, rfl⟩

/-! RTS -/

theorem exec_rts (s : State) : exec .rts s = execRts s := rfl

theorem exec_rts_eq (h : Loadable s s.a3 3) :
    exec .rts s = .next (((s.afterRead s.a3 3).setA .a3 (s.a3 + 4)).jump (s.peek24 s.a3)) := by
  rw [exec_rts, execRts, load24_eq h]

/-- Settles O41. -/
theorem rtsPopsReturnAddress : Obligations.RtsPopsReturnAddress := by
  intro s hload
  refine ⟨_, exec_rts_eq hload, by simp, by simp, by simp, by simp, ⟨fun r _ => by simp, fun r hr => ?_⟩,
    ⟨fun x _ => by simp, fun _ => by simp⟩, by simp, by simp⟩
  have hne : r ≠ .a3 := by simpa using hr
  simp [hne]

/-- Settles O42: the call leaves its return address at the new A3, where RTS may load as the call could store. -/
theorem callThenRtsReturns : Obligations.CallThenRtsReturns := by
  intro s t i hs hram hcall ht
  obtain ⟨target, hexec⟩ := exec_call hcall s
  obtain ⟨hstore, -⟩ := callSubroutine_next (hexec.symm.trans ht)
  obtain ⟨t', ht', ha3, hholds, -, hpsw, hmdr, hregs, hmem, hplatform, -⟩ := callsTo_of_callSubroutine hexec hs hstore
  obtain rfl : t' = t := next_inj (ht'.symm.trans ht)
  have hload : Loadable t' t'.a3 3 := (loadable_congr hplatform _ 3).2 (ha3 ▸ hstore.1)
  obtain ⟨u, hu, hpc, ha3', hpsw', hmdr', hregs', hmem', -⟩ := rtsPopsReturnAddress t' hload
  refine ⟨u, hu, ?_, hpsw'.trans hpsw, hmdr'.trans hmdr, (hregs.trans hregs').of_a3 ?_, hmem.trans_kept hmem'⟩
  · rw [hpc, ha3, peek24_of_holdsBytes hholds hram hplatform]
  · rw [ha3', ha3, sub_add_cancel]

/-! RTI -/

/-- What may be loaded does not change with the first of the two reads. -/
theorem exec_rti_eq (hword : Loadable s s.a3 2) (hptr : Loadable s (s.a3 + 2) 3) :
    let r := s.afterRead s.a3 2
    exec .rti s =
      .next ((((r.afterRead (s.a3 + 2) 3).setPsw (s.peek16 s.a3)).setA .a3 (s.a3 + 6)).jump (r.peek24 (s.a3 + 2))) := by
  intro r
  have hptr' : Loadable r (s.a3 + 2) 3 := (loadable_congr (afterRead_platform s s.a3 2) _ 3).2 hptr
  rw [exec_rti, returnFromInterrupt, load16_eq hword, load24_eq hptr']

/-- Settles O43. -/
theorem rtiRestoresPswAndPc : Obligations.RtiRestoresPswAndPc := by
  intro s hword hptr
  refine ⟨_, exec_rti_eq hword hptr, by simp, by simp, by simp, by simp,
    ⟨fun r _ => by simp, fun r hr => ?_⟩, ⟨fun x _ => by simp, fun _ => by simp⟩, by simp, by simp⟩
  have hne : r ≠ .a3 := by simpa using hr
  simp [hne]

/-! Interrupt entry -/

/-- The two free bits are above the fourteen that PSW keeps (R23). -/
theorem pswRead_extract (s : State) : s.pswRead.extractLsb' 0 14 = s.psw.extractLsb' 0 14 :=
  BitVec.extractLsb'_append_eq_right

/-- What an entry leaves: five bytes at the new A3, the PSW as read below the resume address; the rest is as before but
PSW and pc, which the request says (R336). -/
theorem enterInterrupt_leaves {mask : Word → Word} {entry : Ptr} (hs : s.Inv)
    (h : enterInterrupt mask entry s = .next t) :
    t.a3 = s.a3 - 6 ∧ HoldsBytes s t (s.a3 - 6) (le16 s.pswRead ++ le24 s.pc) ∧ t.pc = entry ∧
      t.psw = mask (pswClearIE s.psw) ∧ t.mdr = s.mdr ∧ KeepsRegs s t [] [.a3] ∧
      KeepsMem s t (bytesFrom (s.a3 - 6) 5) ∧ KeepsPlatform s t := by
  obtain ⟨u, v, hu, hv, -, -, rfl⟩ := enterInterrupt_next h
  have hpushes : v = (s.consume 2).pokeBytes (s.a3 - 6) (le16 s.pswRead ++ le24 s.pc) := by
    rw [hv, hu]
    exact pokeBytes_append (s.consume 2) (s.a3 - 6) (le16 s.pswRead) (le24 s.pc)
  subst hpushes
  have hinv : (s.consume 2).Inv := (SameStorage.consume (.refl s) 2).inv hs
  have hholds := pokeBytes_holds hinv (s.a3 - 6) (le16 s.pswRead ++ le24 s.pc) (by simp)
  obtain ⟨hbytes, hout⟩ := pokeBytes_keepsMem (s.consume 2) (s.a3 - 6) (le16 s.pswRead ++ le24 s.pc)
  refine ⟨by simp, fun j hj hram => ?_, by simp, by simp, by simp, ⟨fun r _ => by simp, fun r hr => ?_⟩,
    ⟨fun x hx => ?_, fun hx => ?_⟩, by simp, by simp⟩
  · simpa using hholds j hj (by simpa using hram)
  · have hne : r ≠ .a3 := by simpa using hr
    simp [hne]
  · simpa using hbytes x hx
  · simpa using hout (by simpa using hx)

/-- After an entry RTI may load what the entry stored. -/
theorem enterInterrupt_loadable {mask : Word → Word} {entry : Ptr} (h : enterInterrupt mask entry s = .next t) :
    Loadable t (s.a3 - 6) 2 ∧ Loadable t (s.a3 - 6 + 2) 3 := by
  obtain ⟨u, v, rfl, rfl, ⟨hfirst, -⟩, ⟨hsecond, -⟩, rfl⟩ := enterInterrupt_next h
  exact ⟨(loadable_congr (by simp) _ 2).2 hfirst, (loadable_congr (by simp) _ 3).2 hsecond⟩

/-- RTI undoes an entry, whatever the entry did to IM and wherever it went. -/
theorem enterInterrupt_then_rti {mask : Word → Word} {entry : Ptr} (hs : s.Inv) (hram : AllRam s (s.a3 - 6) 5)
    (h : enterInterrupt mask entry s = .next t) :
    ∃ u, exec .rti t = .next u ∧ u.pc = s.pc ∧ u.psw.extractLsb' 0 14 = s.psw.extractLsb' 0 14 ∧ u.mdr = s.mdr ∧
      KeepsRegs s u [] [] ∧ KeepsMem s u (bytesFrom (s.a3 - 6) 5) := by
  obtain ⟨ha3, hholds, -, -, hmdr, hregs, hmem, hplatform, -⟩ := enterInterrupt_leaves hs h
  obtain ⟨hword, hptr⟩ := enterInterrupt_loadable h
  rw [← ha3] at hword hptr
  obtain ⟨u, hu, hpsw', hpc', ha3', hmdr', hregs', hmem', -⟩ := rtiRestoresPswAndPc t hword hptr
  obtain ⟨hramWord, hramPtr⟩ := allRam_append (m := 2) (n := 3) |>.1 hram
  have hpsw : t.peek16 t.a3 = s.pswRead := ha3 ▸ peek16_of_holdsBytes hholds.append_left hramWord hplatform
  have hpc : (t.afterRead t.a3 2).peek24 (t.a3 + 2) = s.pc := by
    have hafter : HoldsBytes s (t.afterRead t.a3 2) (s.a3 - 6 + 2) (le24 s.pc) := fun j hj hk => by
      rw [afterRead_byteAt]
      exact hholds.append_right j hj hk
    rw [ha3] at hafter ⊢
    exact peek24_of_holdsBytes hafter hramPtr ((afterRead_platform _ _ _).trans hplatform)
  refine ⟨u, hu, hpc'.trans hpc, ?_, hmdr'.trans hmdr, (hregs.trans hregs').of_a3 ?_, hmem.trans_kept hmem'⟩
  · rw [hpsw', hpsw, pswRead_extract]
  · rw [ha3', ha3, sub_add_cancel]

/-- Settles O47: the entry is made by the state without its event, which has the same registers and memory. -/
theorem entryThenRtiReturns : Obligations.EntryThenRtiReturns := by
  intro s t e es hs hram he hentered hstep
  obtain ⟨mask, entry, henter⟩ := step_enters he hentered
  exact enterInterrupt_then_rti (s := { s with events := es }) hs hram (henter.symm.trans hstep)

end Sys2Proof.Machine
end

section
/-! PROOFS. What an interrupt entry and a reset do at an instruction boundary (R333, R334, R336, R342, R344, R360). The two
kinds of request share one entry, which writes PSW as the request says; what is left to say of each kind is which bits
that keeps. -/

namespace Sys2Proof.Machine

variable {s : State} {es : List BoundaryEvent}

/-! A reset -/

theorem step_reset (he : s.events = .reset :: es) : step s = .next (resetProcessor { s with events := es }) := by
  rw [step, nextStep, he]
  rfl

/-- Settles O48. -/
theorem resetEventRestarts : Obligations.ResetEventRestarts := fun _ _ he => ⟨_, step_reset he, rfl, rfl, rfl, rfl, rfl⟩

/-! Entry -/

/-- A step that enters with a stack that may be stored to completes; the PSW that its read gives, in the frame, has two
free bits above the fourteen stored ones (R23, R336). -/
theorem step_leaves_entry {mask : Word → Word} {entry : Ptr} (hs : s.Inv)
    (hstep : step s = enterInterrupt mask entry { s with events := es }) (hfirst : Storable s (s.a3 - 6) 2)
    (hsecond : Storable s (s.a3 - 4) 3) :
    ∃ (t : State) (b15 b14 : Bool), step s = .next t ∧ t.a3 = s.a3 - 6 ∧
      HoldsBytes s t (s.a3 - 6)
        (le16 (BitVec.ofBool b15 ++ BitVec.ofBool b14 ++ s.psw.extractLsb' 0 14) ++ le24 s.pc) ∧
      t.pc = entry ∧ t.psw = mask (pswClearIE s.psw) ∧ t.mdr = s.mdr ∧ KeepsRegs s t [] [.a3] ∧
      KeepsMem s t (bytesFrom (s.a3 - 6) 5) ∧ t.platform = s.platform ∧ t.events = es := by
  obtain ⟨t, ht, -⟩ := enterInterrupt_sends (s := { s with events := es }) mask entry hfirst hsecond
  exact ⟨t, s.freeBit 1, s.freeBit 0, hstep.trans ht, enterInterrupt_leaves (s := { s with events := es }) hs ht⟩

/-! The PSW that an entry leaves -/

theorem pswClearIE_disabled (p : Word) : (pswClearIE p).getLsbD 11 = false := by
  rw [pswClearIE_getLsbD, decide_eq_false (by decide), Bool.and_false]

/-- Clearing IE keeps every field that does not cover bit 11 (R21). -/
theorem pswClearIE_extract (p : Word) {start len : Nat} (h : start + len ≤ 11 ∨ 11 < start) :
    (pswClearIE p).extractLsb' start len = p.extractLsb' start len := by
  refine BitVec.eq_of_getLsbD_eq fun k hk => ?_
  have hne : start + k ≠ 11 := by omega
  simp [pswClearIE_getLsbD, hne]

/-- Settles O44: IM, at a place R18 leaves room for, does not cover IE, so clearing IE and writing IM do not meet. -/
theorem maskableEntry : Obligations.MaskableEntry := by
  intro s l es hs hfits he haccepted hfirst hsecond
  obtain ⟨-, hroom, hoff⟩ := hfits
  obtain ⟨t, b15, b14, ht, ha3, hholds, hpc, hpsw, hmdr, hregs, hmem, hplatform, hevents⟩ :=
    step_leaves_entry hs (step_maskable he haccepted) hfirst hsecond
  refine ⟨t, b15, b14, ht, ha3, hholds, ?_, ?_, fun k hk hout => ?_, hpc, hmdr, hregs, hmem, hplatform, hevents⟩
  · rw [hpsw, pswSetIM_getLsbD hoff.symm, pswClearIE_disabled]
  · rw [hpsw, pswSetIM_extract hroom]
  · rw [hpsw, pswSetIM_getLsbD hout, pswClearIE_getLsbD, decide_eq_true hk, Bool.and_true]

/-- Settles O45: the request leaves IM, so IE is all that PSW loses. -/
theorem nonMaskableEntry : Obligations.NonMaskableEntry := by
  intro s es hs he hfirst hsecond
  obtain ⟨t, b15, b14, ht, ha3, hholds, hpc, hpsw, hmdr, hregs, hmem, hplatform, hevents⟩ :=
    step_leaves_entry hs (step_nonMaskable he) hfirst hsecond
  refine ⟨t, b15, b14, ht, ha3, hholds, ?_, ?_, ?_, hpc, hmdr, hregs, hmem, hplatform, hevents⟩
  · rw [hpsw, pswClearIE_disabled]
  · rw [hpsw, pswClearIE_extract s.psw (.inl (by decide))]
  · rw [hpsw, pswClearIE_extract s.psw (.inr (by decide))]

end Sys2Proof.Machine
end

section
/-! PROOFS. When an instruction completes (R330, R331). A load or a store goes on exactly when it may be made and what it
goes on with completes; so an instruction of any shape completes exactly when each of its accesses may be made. -/

namespace Sys2Proof.Machine

variable {s : State} {ea : Ptr} {r : Refusal}

/-! One access and what goes on with it -/

theorem load8_completes_iff {k : Byte → State → Result} :
    (∃ t, load8 ea s k = .next t) ↔ Loadable s ea 1 ∧ ∃ t, k (s.peek8 ea) (s.afterRead ea 1) = .next t := by
  constructor
  · rintro ⟨t, h⟩
    exact ⟨(load8_next h).1, t, (load8_next h).2⟩
  · rintro ⟨hload, t, h⟩
    exact ⟨t, (load8_eq hload k).trans h⟩

theorem load16_completes_iff {k : Word → State → Result} :
    (∃ t, load16 ea s k = .next t) ↔ Loadable s ea 2 ∧ ∃ t, k (s.peek16 ea) (s.afterRead ea 2) = .next t := by
  constructor
  · rintro ⟨t, h⟩
    exact ⟨(load16_next h).1, t, (load16_next h).2⟩
  · rintro ⟨hload, t, h⟩
    exact ⟨t, (load16_eq hload k).trans h⟩

theorem load24_completes_iff {k : Ptr → State → Result} :
    (∃ t, load24 ea s k = .next t) ↔ Loadable s ea 3 ∧ ∃ t, k (s.peek24 ea) (s.afterRead ea 3) = .next t := by
  constructor
  · rintro ⟨t, h⟩
    exact ⟨(load24_next h).1, t, (load24_next h).2⟩
  · rintro ⟨hload, t, h⟩
    exact ⟨t, (load24_eq hload k).trans h⟩

theorem store_completes_iff {bytes : List Byte} {k : State → Result} :
    (∃ t, store ea bytes s k = .next t) ↔
      Storable s ea bytes.length ∧ ∃ t, k (s.pokeBytes ea bytes) = .next t := by
  constructor
  · rintro ⟨t, h⟩
    exact ⟨(store_next h).1, t, (store_next h).2⟩
  · rintro ⟨hstore, t, h⟩
    exact ⟨t, (store_eq hstore k).trans h⟩

theorem next_completes (t : State) : ∃ u, (.next t : Result) = .next u := ⟨t, rfl⟩

/-- BSET and BCLR: the load leaves the platform as it is, and with it what may be stored to. -/
theorem modifyByte_completes_iff {f : Byte → Byte} {mask : Byte} {len : Nat} :
    (∃ t, modifyByte f mask ea len s = .next t) ↔ Loadable s ea 1 ∧ Storable s ea 1 := by
  rw [modifyByte, load8_completes_iff, store_completes_iff, and_iff_left (next_completes _)]
  exact and_congr_right' (storable_congr (afterRead_platform s ea 1) ea 1)

/-- RTI: the first load leaves the platform as it is, and with it what the second may read. -/
theorem returnFromInterrupt_completes_iff :
    (∃ t, returnFromInterrupt s = .next t) ↔ Loadable s s.a3 2 ∧ Loadable s (s.a3 + 2) 3 := by
  rw [returnFromInterrupt, load16_completes_iff, load24_completes_iff, and_iff_left (next_completes _),
    loadable_congr (afterRead_platform s s.a3 2)]

/-! No refusal -/

theorem load8_ne_refused {k : Byte → State → Result} (hk : ∀ b t, k b t ≠ .refused r) : load8 ea s k ≠ .refused r := by
  unfold load8
  split
  · exact nofun
  · exact hk _ _

theorem load16_ne_refused {k : Word → State → Result} (hk : ∀ w t, k w t ≠ .refused r) : load16 ea s k ≠ .refused r := by
  unfold load16
  split
  · exact nofun
  · exact hk _ _

theorem load24_ne_refused {k : Ptr → State → Result} (hk : ∀ v t, k v t ≠ .refused r) : load24 ea s k ≠ .refused r := by
  unfold load24
  split
  · exact nofun
  · exact hk _ _

theorem store_ne_refused {bytes : List Byte} {k : State → Result} (hk : ∀ t, k t ≠ .refused r) :
    store ea bytes s k ≠ .refused r := by
  unfold store
  split
  · exact nofun
  · exact hk _

/-! The shapes -/

variable {load : Option (Ptr × Nat)} {stored : Option (Ptr × List Byte)} {answer : Result}

theorem completes_iff_of_shape (h : AccessShape s load stored answer) :
    (∃ t, answer = .next t) ↔
      (∀ ea n, load = some (ea, n) → Loadable s ea n) ∧
        ∀ ea bytes, stored = some (ea, bytes) → Storable s ea bytes.length := by
  cases h with
  | plain t => simp
  | load8 ea k => simp [load8_completes_iff]
  | load16 ea k => simp [load16_completes_iff]
  | load24 ea k => simp [load24_completes_iff]
  | store ea bytes k => simp [store_completes_iff]
  | modify f mask ea len => simp [modifyByte_completes_iff]

theorem ne_refused_of_shape (h : AccessShape s load stored answer) : answer ≠ .refused r := by
  cases h with
  | plain t => exact nofun
  | load8 => exact load8_ne_refused fun _ _ => nofun
  | load16 => exact load16_ne_refused fun _ _ => nofun
  | load24 => exact load24_ne_refused fun _ _ => nofun
  | store => exact store_ne_refused fun _ => nofun
  | modify => exact load8_ne_refused fun _ _ => store_ne_refused fun _ => nofun

/-! Every instruction -/

/-- RTI: loadOf names the first of its two loads; the second is the one three bytes wide at A3+2. -/
theorem exec_rti_completes_iff :
    (∃ t, exec .rti s = .next t) ↔
      (∀ ea n, loadOf s .rti = some (ea, n) → Loadable s ea n) ∧ Loadable s (s.a3 + 2) 3 ∧
        ∀ ea bytes, storeOf s .rti = some (ea, bytes) → Storable s ea bytes.length := by
  rw [exec_rti, returnFromInterrupt_completes_iff]
  simp [loadOf, storeOf]

theorem exec_ne_refused (i : Instr) (s : State) : exec i s ≠ .refused r := by
  by_cases hrti : i = .rti
  · subst hrti
    rw [exec_rti]
    exact load16_ne_refused fun _ _ => load24_ne_refused fun _ _ => nofun
  · exact ne_refused_of_shape (exec_accessShape s i hrti)

/-- Settles O60: RTI is a case of its own; every other instruction has one shape. -/
theorem instructionsStopOnlyAtAccesses : Obligations.InstructionsStopOnlyAtAccesses := by
  refine fun s i => ⟨?_, fun r => exec_ne_refused i s⟩
  by_cases hrti : i = .rti
  · subst hrti
    rw [exec_rti_completes_iff, forall_prop_of_true rfl]
  · rw [completes_iff_of_shape (exec_accessShape s i hrti), forall_prop_of_false hrti, true_and]

end Sys2Proof.Machine
end
